-- ==== Sys2Proof/Word.lean ====
section
/-! DEFINITION. The word types of the block (spec 00_scope.md R5, R7): every quantity is unsigned. -/

namespace Sys2Proof

/-- A byte of memory, an operation code, an access or flags byte (u8). -/
abbrev Byte := BitVec 8

/-- An address, a PDE, a PTE, the contents of a port (u32; `XLEN` of R5). -/
abbrev Word := BitVec 32

/-- A segment descriptor (u64; `DESC_BITS` of R5). -/
abbrev Descriptor := BitVec 64

/-- A segment selector or the GDT pointer's limit (u16; R78, R79). -/
abbrev Half := BitVec 16

/-- A frame number, a virtual page number, or `cur_dir` (u20; R16, R23, R88). -/
abbrev PageNumber := BitVec 20

/-- A flags record (u12), bit i of which has the meaning of bit i of the entry it is for (R86). -/
abbrev FlagsRecord := BitVec 12

end Sys2Proof
end

