-- ==== Sys2Proof/Config.lean ====
section
/-! DEFINITION. What an implementation fixes (spec 00_scope.md R5, R6) and the free values: constants with no body,
which no proof can see. -/

namespace Sys2Proof

/-- `GDT_ENTRIES` (R5). -/
def gdtEntries : Nat := 6

/-- `GDT_BYTES` (R5): 48. -/
def gdtBytes : Nat := gdtEntries * 8

/-- `LIMIT_MAX` (R5): the largest descriptor limit. -/
def limitMax : Word := 0xFFFFF#32

/-- `PAGE_BYTES` (R5). -/
def pageBytes : Nat := 4096

/-- `ENTRY_BYTES` (R5): the size of one PDE or PTE. -/
def entryBytes : Nat := 4

/-- A block of physical addresses that hold memory. -/
structure Region where
  base : Nat
  size : Nat
deriving DecidableEq, Repr

/-- The parameters of R6, one field each. They are carried in State and no step writes them, so a claim about every
state is a claim about every value of every parameter (DESIGN CHOICE, log 1). -/
structure Config where
  /-- `KERNEL_VIRTUAL_BASE` (D5). -/
  kernelVirtualBase : Word
  /-- `GDT_LINEAR_BASE` (D14). -/
  gdtLinearBase : Word
  /-- `BOOT_PAGE_DIRECTORY` (D12). -/
  bootPageDirectory : Word
  /-- `PDE_FLAG_MASK` (D9): which PDE bits MAP_PAGE overwrites. -/
  pdeFlagMask : FlagsRecord
  /-- `KERNEL_CS_SELECTOR` (D13). -/
  kernelCs : Half
  /-- `KERNEL_DS_SELECTOR` (D13). -/
  kernelDs : Half
  /-- The regions where the predicate `Backed` (D23) holds. -/
  backed : List Region
deriving DecidableEq, Repr

/-- The constraints R6 and D9 put on the parameters: the base is non-zero with bits 11:0 zero, the directory's bits
11:0 are zero, and the mask contains RW, US, PWT and PCD (`0x01E ⊆ mask`). -/
def Config.wf (c : Config) : Bool :=
  decide (c.kernelVirtualBase ≠ 0#32) && decide (c.kernelVirtualBase.setWidth 12 = 0#12)
    && decide (c.bootPageDirectory.setWidth 12 = 0#12) && decide (c.pdeFlagMask &&& 0x01E#12 = 0x01E#12)

/-- The choices of R6 and the example values of 95_test_vectors.md, with every physical address backed
(DESIGN CHOICE, log 1). -/
def Config.spec : Config where
  kernelVirtualBase := 0xC0000000#32
  gdtLinearBase := 0xC0104000#32
  bootPageDirectory := 0x00105000#32
  pdeFlagMask := 0x01F#12
  kernelCs := 0x0008#16
  kernelDs := 0x0010#16
  backed := [{ base := 0, size := 4294967296 }]

/-- A cached translation (10_state.md R23): `{frame: u20, flags: u12}`. -/
structure TlbEntry where
  frame : PageNumber
  flags : FlagsRecord
deriving DecidableEq, Repr

/-- What the CPU does to its TLB on its own (R23). -/
inductive TlbAct where
  /-- Cache the translation that a walk of the tables now in memory gives for this page. -/
  | fill (vpn : PageNumber)
  /-- Remove this page's entry. -/
  | drop (vpn : PageNumber)
deriving DecidableEq, Repr

/-- Free value (log 6): the fills and drops of the CPU's n-th turn (R23: "at any moment"; R24: "an order the relation
leaves open"). -/
opaque Config.cpuActs : Nat → List TlbAct

/-- Free value (log 6): how the cached flags combine the PDE's and the PTE's low twelve bits (R228 says only
"combination of pde[11:0] and pte[11:0]"). -/
opaque Config.combineFlags : FlagsRecord → FlagsRecord → FlagsRecord

/-- Free value (log 6): whether a flush at the n-th turn keeps this page's global entry (R224: "may be removed or
kept"). -/
opaque Config.keepsGlobal : Nat → Nat → Bool

/-- Free value (log 6): the entries the TLB holds at reset (R25: "unspecified set of entries"). -/
opaque Config.resetTlb : List (PageNumber × TlbEntry)

/-- Free value (log 8): whether the CPU has 4 MiB pages enabled (91_not_in_source.md N26, R228). -/
opaque Config.fourMiBPages : Bool

end Sys2Proof
end

