-- ==== Sys2Proof/Machine/Formats.lean ====
section
/-! DEFINITION. The data formats: segment descriptor, GDT pointer, PDE, PTE, virtual address (spec 30_encoding.md), and
the bit arithmetic of the descriptor encoder, the entry codec and the address translator (40, 42, 43) that every other
rule routes through (R172). -/

namespace Sys2Proof.Machine

open Sys2Proof

/-- The clamp of R73 and R111: `min(limit, 0xFFFFF)`, not a mask. -/
def clampLimit (limit : Word) : PageNumber := if limitMax < limit then 0xFFFFF#20 else limit.setWidth 20

/-- ENC_DESC's packing, as R110 writes it. -/
def packDescriptor (base limit : Word) (access flags : Byte) : Descriptor :=
  let lim20 := clampLimit limit
  (lim20.extractLsb' 0 16).setWidth 64
    ||| (base.extractLsb' 0 16).setWidth 64 <<< 16
    ||| (base.extractLsb' 16 8).setWidth 64 <<< 32
    ||| access.setWidth 64 <<< 40
    ||| (lim20.extractLsb' 16 4).setWidth 64 <<< 48
    ||| (flags.extractLsb' 4 4).setWidth 64 <<< 52
    ||| (base.extractLsb' 24 8).setWidth 64 <<< 56

/-- The base of a descriptor (R74). -/
def descBase (d : Descriptor) : Word := d.extractLsb' 56 8 ++ d.extractLsb' 32 8 ++ d.extractLsb' 16 16

/-- The limit of a descriptor (R74). -/
def descLimit (d : Descriptor) : BitVec 20 := d.extractLsb' 48 4 ++ d.extractLsb' 0 16

/-- The access byte of a descriptor (R74). -/
def descAccess (d : Descriptor) : Byte := d.extractLsb' 40 8

/-- The flags of a descriptor, low nibble zero (R74). -/
def descFlags (d : Descriptor) : Byte := d.extractLsb' 52 4 ++ 0#4

/-- Access byte: present (R71). -/
def accessP (a : Byte) : Bool := a.getLsbD 7

/-- Access byte: DPL (R71). -/
def accessDpl (a : Byte) : BitVec 2 := a.extractLsb' 5 2

/-- Access byte: descriptor-type; 1 = code or data segment (R71). -/
def accessS (a : Byte) : Bool := a.getLsbD 4

/-- Access byte: executable (R71). -/
def accessE (a : Byte) : Bool := a.getLsbD 3

/-- Access byte: direction/conforming (R71). -/
def accessDc (a : Byte) : Bool := a.getLsbD 2

/-- Access byte: read-write (R71). -/
def accessRw (a : Byte) : Bool := a.getLsbD 1

/-- Access byte: accessed (R71). -/
def accessA (a : Byte) : Bool := a.getLsbD 0

/-- The system type of an access byte with `S = 0`: its low four bits (R71). -/
def accessType (a : Byte) : BitVec 4 := a.extractLsb' 0 4

/-- Flags byte: granularity (R72). -/
def flagsG (f : Byte) : Bool := f.getLsbD 7

/-- Flags byte: default-operand-size (R72). -/
def flagsD (f : Byte) : Bool := f.getLsbD 6

/-- Flags byte: long-mode (R72). -/
def flagsL (f : Byte) : Bool := f.getLsbD 5

/-- One row of the GDT layout (R121). -/
structure GdtRow where
  base : Word
  limit : Word
  access : Byte
  flags : Byte
deriving DecidableEq, Repr

/-- The layout constants of R121, slots 0 to 5. -/
def gdtLayout : Vector GdtRow 6 :=
  #v[{ base := 0#32, limit := 0#32, access := 0x00#8, flags := 0x00#8 },
    { base := 0#32, limit := 0xFFFFF#32, access := 0x9A#8, flags := 0xC0#8 },
    { base := 0#32, limit := 0xFFFFF#32, access := 0x92#8, flags := 0xC0#8 },
    { base := 0#32, limit := 0xFFFFF#32, access := 0xFA#8, flags := 0xC0#8 },
    { base := 0#32, limit := 0xFFFFF#32, access := 0xF2#8, flags := 0xC0#8 },
    { base := 0#32, limit := 0#32, access := 0x89#8, flags := 0x00#8 }]

/-- ENC_DESC of one row (R122: each slot is exactly ENC_DESC of its row). -/
def buildSlot (r : GdtRow) : Descriptor := packDescriptor r.base r.limit r.access r.flags

/-- The table INIT_GDT builds: ENC_DESC of each row, slots 0 to 5 (R122). -/
def builtGdt : Vector Descriptor 6 :=
  #v[buildSlot gdtLayout[0], buildSlot gdtLayout[1], buildSlot gdtLayout[2], buildSlot gdtLayout[3], buildSlot gdtLayout[4],
    buildSlot gdtLayout[5]]

/-- Byte `k` of a descriptor's memory image, little-endian (R18, R40, R70). -/
def descriptorByte (d : Descriptor) (k : Nat) : Byte := d.extractLsb' (8 * k) 8

/-- The byte at offset `o` of the table's memory image (R18): byte `o % 8` of slot `o / 8`. -/
def gdtImageByte (gdt : Vector Descriptor 6) (o : Nat) : Option Byte := (gdt[o / 8]?).map fun d => descriptorByte d (o % 8)

/-- The limit of the GDT pointer: byte size of the table minus one, 47 (R78, R126). -/
def gdtPointerLimit : Half := BitVec.ofNat 16 (gdtBytes - 1)

/-- The 6-byte memory image of the GDT pointer (R78). -/
def gdtPointerImage (limit : Half) (base : Word) : List Byte :=
  [limit.extractLsb' 0 8, limit.extractLsb' 8 8, base.extractLsb' 0 8, base.extractLsb' 8 8, base.extractLsb' 16 8,
    base.extractLsb' 24 8]

/-- The slot a selector names: bits 15:3 (R79). -/
def selectorIndex (s : Half) : Nat := s.toNat / 8

/-- A selector's table indicator: bit 2; 0 = the GDT (R79). The reload (R221, R222) masks it and does not test it. -/
def selectorTi (s : Half) : Bool := s.getLsbD 2

/-- A selector's requested privilege level: bits 1:0 (R79). -/
def selectorRpl (s : Half) : BitVec 2 := s.extractLsb' 0 2

/-- Page alignment downward (R171): `a & 0xFFFFF000`. -/
def alignPage (a : Word) : Word := a &&& 0xFFFFF000#32

/-- DIR_IDX (R166). -/
def dirIndex (v : Word) : Word := v >>> 22

/-- TBL_IDX (R167). -/
def tblIndex (v : Word) : Word := (v >>> 12) &&& 0x3FF#32

/-- PG_OFF (R168). -/
def pageOffset (v : Word) : Word := v &&& 0xFFF#32

/-- FRAME_ADDR (R169). -/
def frameAddress (e : Word) : Word := e &&& 0xFFFFF000#32

/-- The virtual page number `virt[31:12]` (R9, R88). -/
def vpnOf (v : Word) : PageNumber := v.extractLsb' 12 20

/-- V2P (R160), for a given `KERNEL_VIRTUAL_BASE`. -/
def virtToPhys (base v : Word) : Word := if base ≤ v then v - base else v

/-- P2V (R161): wraps modulo 2^32. -/
def physToVirt (base p : Word) : Word := p + base

/-- ENC_PDE (R140). -/
def packPde (pa : Word) (fl : FlagsRecord) : Word := (pa &&& 0xFFFFF000#32) ||| fl.setWidth 32

/-- ENC_PTE (R142). -/
def packPte (pa : Word) (fl : FlagsRecord) : Word := (pa &&& 0xFFFFF000#32) ||| fl.setWidth 32

/-- The frame address a PDE or PTE decodes to (R141, R143): `e[31:12] << 12`. -/
def entryFrame (e : Word) : Word := (e.extractLsb' 12 20).setWidth 32 <<< 12

/-- The flags record of an entry (R141, R143): `e[11:0]`. -/
def entryFlags (e : Word) : FlagsRecord := e.setWidth 12

/-- `P`, present (R80, R83). -/
def entryP (e : Word) : Bool := e.getLsbD 0

/-- `RW`, read-write (R80, R83). -/
def entryRw (e : Word) : Bool := e.getLsbD 1

/-- `US`, user/supervisor (R80, R83). -/
def entryUs (e : Word) : Bool := e.getLsbD 2

/-- `PWT`, write-through (R80, R83). -/
def entryPwt (e : Word) : Bool := e.getLsbD 3

/-- `PCD`, cache-disable (R80, R83). -/
def entryPcd (e : Word) : Bool := e.getLsbD 4

/-- `A`, accessed (R80, R83). -/
def entryA (e : Word) : Bool := e.getLsbD 5

/-- A PDE's ignored bit 6 (R80). -/
def pdeIgn6 (e : Word) : Bool := e.getLsbD 6

/-- A PDE's `PS`, page-size (R80, conflict C3). -/
def pdePs (e : Word) : Bool := e.getLsbD 7

/-- A PDE's `AVL` (R80). -/
def pdeAvl (e : Word) : BitVec 4 := e.extractLsb' 8 4

/-- A PTE's `D`, dirty (R83). -/
def pteD (e : Word) : Bool := e.getLsbD 6

/-- A PTE's `PAT` (R83). -/
def ptePat (e : Word) : Bool := e.getLsbD 7

/-- A PTE's `G`, global (R83). -/
def pteG (e : Word) : Bool := e.getLsbD 8

/-- A PTE's `AVL` (R83). -/
def pteAvl (e : Word) : BitVec 3 := e.extractLsb' 9 3

/-- The 20-bit field of an entry (R80, R83). -/
def entryBase (e : Word) : PageNumber := e.extractLsb' 12 20

/-- The mask of the field at bits `lo + width - 1 : lo` (R144 item 4). -/
def fieldMask (lo width : Nat) : Word := BitVec.ofNat 32 (2 ^ width - 1) <<< lo

/-- Write one field of an entry and leave the others (R144 item 4). -/
def setField (e : Word) (lo width : Nat) (v : Word) : Word :=
  (e &&& ~~~ fieldMask lo width) ||| ((v <<< lo) &&& fieldMask lo width)

/-- The PDE update of MAP_PAGE (R190): `pde' = (pde & ~M) | (pde_flags & M)` with `M` the mask widened to 32 bits. -/
def updatePde (mask : FlagsRecord) (pde : Word) (pdeFlags : FlagsRecord) : Word :=
  (pde &&& ~~~ mask.setWidth 32) ||| (pdeFlags &&& mask).setWidth 32

end Sys2Proof.Machine
end

