-- ==== Sys2Proof/Machine/Store.lean ====
section
/-! DEFINITION. Sparse data by key in one canonical form: what physical memory and the TLB are made of. -/

namespace Sys2Proof.Machine

/-- Sparse data by key, in rising order of the keys, each key once. -/
abbrev Store (α : Type) := List (Nat × α)

/-- The value of a key (the first entry with that key; in canonical form there is one). -/
def Store.get {α : Type} : Store α → Nat → Option α
  | [], _ => none
  | (k, v) :: r, a => if k = a then some v else Store.get r a

/-- Give a key a value, keeping the keys in rising order. -/
def Store.put {α : Type} : Store α → Nat → α → Store α
  | [], a, v => [(a, v)]
  | (k, w) :: r, a, v =>
    if a < k then (a, v) :: (k, w) :: r
    else if a = k then (a, v) :: r
    else (k, w) :: Store.put r a v

/-- Keep the entries that satisfy a test. -/
def Store.keep {α : Type} (p : Nat → α → Bool) : Store α → Store α
  | [] => []
  | (k, v) :: r => if p k v then (k, v) :: Store.keep p r else Store.keep p r

/-- Remove a key. -/
def Store.del {α : Type} (m : Store α) (a : Nat) : Store α := Store.keep (fun k _ => decide (k ≠ a)) m

/-- The store that holds the given entries (the first of two with one key wins). -/
def Store.ofList {α : Type} : List (Nat × α) → Store α
  | [] => []
  | (k, v) :: r => Store.put (Store.ofList r) k v

/-- The canonical form: keys strictly rising, each at least `low` and below `bound`. -/
def Store.rising {α : Type} (bound : Nat) : Nat → Store α → Bool
  | _, [] => true
  | low, (k, _) :: r => decide (low ≤ k ∧ k < bound) && Store.rising bound (k + 1) r

end Sys2Proof.Machine
end

