-- ==== Sys2Proof/Syntax.lean ====
section
/-! DEFINITION. The operations of the block and the CPU primitives, one constructor per row of the opcode table
(spec 30_encoding.md R91, R92), and the command that carries one of them. -/

namespace Sys2Proof

/-- The two values of a table reference: the static GDT table, or null (41_gdt_table.md R120). -/
inductive TableRef where
  | null
  | table
deriving DecidableEq, Repr

/-- One row of the opcode table, with typed operands (10_state.md R11 allows this form, R12 gives the widths). -/
inductive Instr where
  /-- ENC_DESC, R110. -/
  | encDesc (base limit : Word) (access flags : Byte)
  /-- INIT_GDT, R122. -/
  | initGdt (ref : TableRef)
  /-- LOAD_GDT, R126. -/
  | loadGdt (ref : TableRef)
  /-- ENC_PDE, R140. -/
  | encPde (pa : Word) (fl : FlagsRecord)
  /-- DEC_PDE, R141. -/
  | decPde (e : Word)
  /-- ENC_PTE, R142. -/
  | encPte (pa : Word) (fl : FlagsRecord)
  /-- DEC_PTE, R143. -/
  | decPte (e : Word)
  /-- V2P, R160. -/
  | v2p (v : Word)
  /-- P2V, R161. -/
  | p2v (p : Word)
  /-- DIR_IDX, R166. -/
  | dirIdx (v : Word)
  /-- TBL_IDX, R167. -/
  | tblIdx (v : Word)
  /-- PG_OFF, R168. -/
  | pgOff (v : Word)
  /-- FRAME_ADDR, R169. -/
  | frameAddr (e : Word)
  /-- INIT_RT, R184. -/
  | initRt
  /-- MAP_PAGE, R188. -/
  | mapPage (virt phys : Word) (pdeFlags pteFlags : FlagsRecord)
  /-- UNMAP_PAGE, R195. -/
  | unmapPage (virt : Word)
  /-- GET_PHYS, R200. -/
  | getPhys (virt : Word)
  /-- IS_MAPPED, R203. -/
  | isMapped (virt : Word)
  /-- P_LGDT, R220. -/
  | pLgdt (limit : Half) (base : Word)
  /-- P_RELOAD_SEGS, R221. -/
  | pReloadSegs
  /-- P_INVLPG, R223. -/
  | pInvlpg (virt : Word)
  /-- P_FLUSH_TLB, R224. -/
  | pFlushTlb
  /-- P_RD_CR3, R225. -/
  | pRdCr3
  /-- P_WR_CR3, R226. -/
  | pWrCr3 (phys : Word)
deriving DecidableEq, Repr

/-- What the command interface carries: the code in `OP` and the four operand ports (R11, R90).
A request to the CPU (R92) is carried the same way: its operands, in R92's order, in `a0`, `a1` (log 12). -/
structure Command where
  op : Byte
  a0 : Word
  a1 : Word
  a2 : Word
  a3 : Word
deriving DecidableEq, Repr

/-- The operand formats of R90; `prim…` are the operand lists of the primitives of R92. -/
inductive Format where
  | s4
  | t1
  | e2
  | e1
  | v1
  | n0
  | m4
  | q1
  /-- limit (u16), base (u32). -/
  | primLgdt
  /-- no operand. -/
  | primNone
  /-- one u32. -/
  | primWord
deriving DecidableEq, Repr

/-- The rows of the opcode table by name (R91, R92). -/
inductive Opcode where
  | encDesc
  | initGdt
  | loadGdt
  | encPde
  | decPde
  | encPte
  | decPte
  | v2p
  | p2v
  | dirIdx
  | tblIdx
  | pgOff
  | frameAddr
  | initRt
  | mapPage
  | unmapPage
  | getPhys
  | isMapped
  | pLgdt
  | pReloadSegs
  | pInvlpg
  | pFlushTlb
  | pRdCr3
  | pWrCr3
deriving DecidableEq, Repr

end Sys2Proof
end

