-- ==== Sys2Proof/Machine/State.lean ====
section
/-! DEFINITION. The state of the block, the host's pending actions and the CPU registers the block reaches
(spec 10_state.md), as plain data; why a step can stop; and the state after reset (R25). -/

namespace Sys2Proof.Machine

open Sys2Proof

/-- Physical memory: the bytes that something has written, by physical address (20_memory.md R41, R44). A byte that is
not listed holds no value (log 3). -/
abbrev Memory := List Host.Cell

/-- The TLB: cached translations by virtual page number (R23). -/
abbrev Tlb := List (Nat × TlbEntry)

/-- The `GDTR` register (R19). -/
structure Gdtr where
  limit : Half
  base : Word
deriving DecidableEq, Repr

/-- A segment register: its visible selector (R20) and the descriptor the CPU cached at its last load
(R221, 41_gdt_table.md R131; log 20). -/
structure SegReg where
  selector : Half
  cached : Descriptor
deriving DecidableEq, Repr

/-- The six segment registers (R20). -/
structure SegRegs where
  cs : SegReg
  ds : SegReg
  es : SegReg
  fs : SegReg
  gs : SegReg
  ss : SegReg
deriving DecidableEq, Repr

/-- The six segment registers, in R20's order. -/
def SegRegs.regs (r : SegRegs) : List SegReg := [r.cs, r.ds, r.es, r.fs, r.gs, r.ss]

/-- The operands a MAP_PAGE latches (R182 first row, R188): `virt` and `phys` already page-aligned. -/
structure MapArgs where
  virt : Word
  phys : Word
  pdeFlags : FlagsRecord
  pteFlags : FlagsRecord
deriving DecidableEq, Repr

/-- The manager operations that read the PTE (R182). -/
inductive QueryKind where
  | unmap
  | getPhys
  | isMapped
deriving DecidableEq, Repr

/-- A manager operation with the operands it latched (R182: "latch operands"). -/
inductive MgrOp where
  | map (m : MapArgs)
  | query (k : QueryKind) (virt : Word)
deriving DecidableEq, Repr

/-- The phase register `ph` (R14, R182, R128), with what the operation in progress has latched and read so far. -/
inductive Phase where
  /-- No operation in progress. -/
  | idle
  /-- CHECK. -/
  | check (op : MgrOp)
  /-- RD_PDE. -/
  | rdPde (op : MgrOp)
  /-- WR_PDE (MAP_PAGE only). -/
  | wrPde (m : MapArgs) (pde : Word)
  /-- RD_PTE (not MAP_PAGE). -/
  | rdPte (k : QueryKind) (virt pde : Word)
  /-- WR_PTE, with the entry to be written. -/
  | wrPte (virt pde newPte : Word)
  /-- INVAL. -/
  | inval
  /-- LGDT (LOAD_GDT). -/
  | lgdt
  /-- RELOAD (LOAD_GDT). -/
  | reload
deriving DecidableEq, Repr

/-- The operand ports (R11). -/
inductive OperandPort where
  | a0
  | a1
  | a2
  | a3
deriving DecidableEq, Repr

/-- What the host reads after an operation (R11). -/
inductive ResultPort where
  | y0
  | y1
  | ok
deriving DecidableEq, Repr

/-- The bits the CPU may set on its own in the entries it uses (20_memory.md R53). -/
inductive CpuMark where
  | pdeAccessed
  | pteAccessed
  | pteDirty
deriving DecidableEq, Repr

/-- One action of an agent outside the block (R10; DESIGN CHOICE, log 4). -/
inductive Input where
  /-- The host writes an operand port (R11). -/
  | writePort (p : OperandPort) (v : Word)
  /-- The host writes `OP`, which issues the operation (R11), and it runs to completion in this step. -/
  | issue (code : Byte)
  /-- The same, but it only enters its first phase: its phases are then taken one per step (20_memory.md R49; log 5). -/
  | issueStepwise (code : Byte)
  /-- The block takes the next phase of the operation in progress: with `cpuMark` between two of these, the CPU's updates
  fall between any two phases (20_memory.md R53; log 5). -/
  | nextPhase
  /-- The host reads a result port (R11, R13). -/
  | readPort (p : ResultPort)
  /-- The host's own code runs a CPU primitive (45_cpu_primitives.md R227, 70_reset_and_hazards.md R293; the channel is log
  12's). That P_LGDT and P_RELOAD_SEGS are among those it may run, at any idle time, is the model's (DESIGN CHOICE, log 28). -/
  | primitive (c : Command)
  /-- The host writes one byte of physical memory (R10 item 2). -/
  | storeByte (pa : Word) (v : Byte)
  /-- The host writes a slot of the table: the TSS patch of `gdt[5]` (R10 item 2, R18), or another slot
  (41_gdt_table.md R131). R131 speaks of such a write after LOAD_GDT; that it may come at any idle time, before INIT_GDT or
  LOAD_GDT has run too, is the model's (DESIGN CHOICE, log 26). -/
  | writeGdt (slot : Fin 6) (d : Descriptor)
  /-- Boot-time set-up loads CR3 (R21, R25). That the load may come at any idle time, after INIT_RT too, with any value, and
  removes no TLB entry is the model's (DESIGN CHOICE, log 27): the spec speaks only of a load before INIT_RT. -/
  | loadCr3 (v : Word)
  /-- The CPU sets a bit of an entry it uses to translate this page (R53). -/
  | cpuMark (vpn : PageNumber) (m : CpuMark)
  /-- The CPU sets the accessed bit of a slot that it has loaded a segment register from (30_encoding.md R71; log 15). -/
  | cpuMarkDescriptor (slot : Fin 6)
deriving DecidableEq, Repr

/-- The state of the machine. `cfg` holds the parameters of R6 and is written by no step (log 1); `inputs`, `cpuTick`
and `ret` are the model's own (log 4, log 6, log 12); every other field is the spec's. -/
@[ext]
structure State where
  /-- The parameters of R6. -/
  cfg : Config
  /-- What the agents outside the block do next, oldest first. -/
  inputs : List Input
  /-- `OP`. -/
  op : Byte
  a0 : Word
  a1 : Word
  a2 : Word
  a3 : Word
  /-- `Y0`; `none`: it holds no value (R13). -/
  y0 : Option Word
  /-- `Y1`; `none`: it holds no value (R13). -/
  y1 : Option Word
  /-- `OK`; `none`: it holds no value (R13, R15). -/
  ok : Option Bool
  ph : Phase
  bound : Bool
  curDir : PageNumber
  invPending : Bool
  invAddr : Word
  /-- `gdt[0..5]` (R18). -/
  gdt : Vector Descriptor 6
  gdtr : Gdtr
  segs : SegRegs
  cr3 : Word
  mem : Memory
  tlb : Tlb
  /-- The counter the free TLB schedule is read at (log 6). -/
  cpuTick : Nat
  /-- What the last value-returning primitive returned (R225; log 12). -/
  ret : Word
deriving DecidableEq, Repr

/-- Why the run is over. -/
inductive Fault where
  /-- `Fatal(BadGdt)`: raised by P_RELOAD_SEGS when `Acceptable` fails (R221, R222, R256). Safe: R222 tells a model to
  raise it whenever its predicate fails. -/
  | badGdt
  /-- A read of a byte of memory that nothing has written, by a manager operation (R44). Safe: the machine goes on with a
  value the spec does not give. -/
  | unwrittenMemory
  /-- The host reads a result port that holds no value: R13, D16 ("reading it is a model fault"), U13. Safe: the port would
  show some number. -/
  | noValue
  /-- Phase INVAL with `inv_pending = 0`, which no transition of R182 leaves (log 21). Safe: no run reaches it. -/
  | stuckPhase
deriving DecidableEq, Repr

/-- Why the model gives an input no meaning. -/
inductive Refusal where
  /-- An instruction whose meaning is not written: raised by no arm of this model. Safe. -/
  | notModelled (mnemonic : String)
  /-- A reserved operation code (R93). Safe: no claim holds of what follows. -/
  | reservedCode (code : Byte)
  /-- A primitive code in `OP` (R93). Safe. -/
  | primitiveFromHost (code : Byte)
  /-- A CPU request that is none of P0 to P5 (R92; log 12). Safe. -/
  | notPrimitive (code : Byte)
  /-- The host acts while an operation is in progress (R14, R290). Safe. -/
  | busy
  /-- A memory access where `Backed` fails (R44, R45): by a manager operation or a host store. Safe. -/
  | unbacked
  /-- P_WR_CR3 of a value other than the current CR3 (R226). Safe: the CPU may go on or raise `Fatal(BadCr3)`. -/
  | cr3Switch
deriving DecidableEq, Repr

/-- The outcome of a computation of type `α` inside a step. -/
abbrev Res (α : Type) := Host.Outcome α Fault Refusal

/-- The canonical form of memory: addresses strictly rising, all in the 32-bit space (R41). An unlisted byte holds no
value, so no entry equals what an unlisted address reads as. -/
def Memory.wf (m : Memory) : Bool := Store.rising (2 ^ 32) 0 m

/-- The canonical form of the TLB: page numbers strictly rising, each of 20 bits. -/
def Tlb.wf (t : Tlb) : Bool := Store.rising (2 ^ 20) 0 t

/-- A segment register whose reset value the model chose (log 2). -/
def SegReg.zero : SegReg := { selector := 0#16, cached := 0#64 }

/-- The machine right after reset (R25, 70_reset_and_hazards.md R280): `ph = IDLE`, `bound = 0`, `inv_pending = 0`, the
result ports hold no value, no byte of memory is written, the TLB holds an unspecified set of entries. Every register
for which R25 gives no value holds zero (DESIGN CHOICE, log 2). -/
def State.reset : State where
  cfg := Config.spec
  inputs := []
  op := 0#8
  a0 := 0#32
  a1 := 0#32
  a2 := 0#32
  a3 := 0#32
  y0 := none
  y1 := none
  ok := none
  ph := .idle
  bound := false
  curDir := 0#20
  invPending := false
  invAddr := 0#32
  gdt := #v[0#64, 0#64, 0#64, 0#64, 0#64, 0#64]
  gdtr := { limit := 0#16, base := 0#32 }
  segs := { cs := SegReg.zero, ds := SegReg.zero, es := SegReg.zero, fs := SegReg.zero, gs := SegReg.zero, ss := SegReg.zero }
  cr3 := 0#32
  mem := []
  tlb := Store.ofList (Config.resetTlb.map fun e => (e.1.toNat, e.2))
  cpuTick := 0
  ret := 0#32

end Sys2Proof.Machine
end

