-- ==== Sys2Proof/Machine/Ops.lean ====
section
/-! DEFINITION. The named operations over the registers and over physical memory, and the fatal fault
(spec 10_state.md, 20_memory.md R43 to R46, 60_exceptions.md R256 to R259). -/

namespace Sys2Proof.Machine

open Sys2Proof

/-- Go on with a value, or stop. -/
def andThen {α β : Type} (r : Res α) (f : α → Res β) : Res β :=
  match r with
  | .next a => f a
  | .fault e => .fault e
  | .refused e => .refused e

/-- `raise Fatal(cause)` (R8, R256 to R258): the CPU takes a processor exception the block does not catch. Nothing is
saved, no mode changes and no handler is entered; the run is over and the state is never final. There is no return from
it (R259). -/
def raiseFatal {α : Type} (cause : Fault) : Res α := .fault cause

/-- Consume the oldest input. -/
def State.setInputs (s : State) (l : List Input) : State := { s with inputs := l }

/-- Write `OP` (R11). -/
def State.setOp (s : State) (code : Byte) : State := { s with op := code }

/-- Write an operand port (R11). -/
def State.setPort (s : State) (p : OperandPort) (v : Word) : State :=
  match p with
  | .a0 => { s with a0 := v }
  | .a1 => { s with a1 := v }
  | .a2 => { s with a2 := v }
  | .a3 => { s with a3 := v }

/-- Give the result ports their values; `none`: the port holds no value (R13, R15). -/
def State.setResults (s : State) (y0 y1 : Option Word) (ok : Option Bool) : State := { s with y0 := y0, y1 := y1, ok := ok }

/-- Set the phase register. -/
def State.setPhase (s : State) (p : Phase) : State := { s with ph := p }

/-- Bind the manager to a directory (R16). -/
def State.bind (s : State) (dir : PageNumber) : State := { s with bound := true, curDir := dir }

/-- Write the pending-invalidation record (R17). -/
def State.setPending (s : State) (pending : Bool) (addr : Word) : State := { s with invPending := pending, invAddr := addr }

/-- Write the GDT slots (R18). -/
def State.setGdt (s : State) (g : Vector Descriptor 6) : State := { s with gdt := g }

/-- Write `GDTR` (R19). -/
def State.setGdtr (s : State) (limit : Half) (base : Word) : State := { s with gdtr := { limit := limit, base := base } }

/-- Write the segment registers (R20). -/
def State.setSegs (s : State) (r : SegRegs) : State := { s with segs := r }

/-- Write `CR3` (R21). -/
def State.setCr3 (s : State) (v : Word) : State := { s with cr3 := v }

/-- Write physical memory. -/
def State.setMem (s : State) (m : Memory) : State := { s with mem := m }

/-- Write the TLB and advance the counter of the free schedule (log 6). -/
def State.setTlb (s : State) (t : Tlb) (tick : Nat) : State := { s with tlb := t, cpuTick := tick }

/-- Return a value from a primitive (R225). -/
def State.setRet (s : State) (v : Word) : State := { s with ret := v }

/-- The command the ports hold (R11). -/
def State.command (s : State) : Command := { op := s.op, a0 := s.a0, a1 := s.a1, a2 := s.a2, a3 := s.a3 }

/-- `Backed(pa)` (R6, D23). -/
def isBacked (c : Config) (pa : Word) : Bool :=
  c.backed.any fun r => decide (r.base ≤ pa.toNat ∧ pa.toNat < r.base + r.size)

/-- The four bytes at `pa`, little-endian (R44); `none` when one of them holds no value. -/
def wordAt (m : Memory) (pa : Word) : Option Word :=
  match Store.get m pa.toNat, Store.get m (pa.toNat + 1), Store.get m (pa.toNat + 2), Store.get m (pa.toNat + 3) with
  | some b0, some b1, some b2, some b3 => some (b3 ++ b2 ++ b1 ++ b0)
  | _, _, _, _ => none

/-- Memory with the four bytes at `pa` written, little-endian (R45). -/
def putWord (m : Memory) (pa : Word) (v : Word) : Memory :=
  Store.put (Store.put (Store.put (Store.put m pa.toNat (v.extractLsb' 0 8)) (pa.toNat + 1) (v.extractLsb' 8 8))
    (pa.toNat + 2) (v.extractLsb' 16 8)) (pa.toNat + 3) (v.extractLsb' 24 8)

/-- `MemRead(pa, 4)` (R44): refused where `Backed` fails, a fault where a byte holds no value. -/
def readWord (s : State) (pa : Word) : Res Word :=
  if isBacked s.cfg pa then
    match wordAt s.mem pa with
    | some w => .next w
    | none => .fault .unwrittenMemory
  else .refused .unbacked

/-- `MemWrite(pa, 4, v)` (R45): refused where `Backed` fails; it does not change the TLB. -/
def writeWord (s : State) (pa : Word) (v : Word) : Res State :=
  if isBacked s.cfg pa then .next (s.setMem (putWord s.mem pa v)) else .refused .unbacked

/-- The host's write of one byte of physical memory (R10 item 2), where there is memory. -/
def writeByte (s : State) (pa : Word) (v : Byte) : Res State :=
  if isBacked s.cfg pa then .next (s.setMem (Store.put s.mem pa.toNat v)) else .refused .unbacked

/-- The physical base address of the active page directory, `cur_dir << 12` (R16). -/
def dirBase (s : State) : Word := s.curDir.setWidth 32 <<< 12

/-- The address of the PDE of `v` in the directory at `dir` (R46). -/
def pdeAddrIn (dir v : Word) : Word := dir + 4#32 * dirIndex v

/-- `pde_addr(v)` (R46). -/
def pdeAddr (s : State) (v : Word) : Word := pdeAddrIn (dirBase s) v

/-- `pte_addr(pde, v)` (R46). -/
def pteAddr (pde v : Word) : Word := frameAddress pde + 4#32 * tblIndex v

/-- The results of `walk` (R181). -/
inductive Walk where
  | noPde
  | noPte (pde : Word)
  | mapped (pde pte : Word)
deriving DecidableEq, Repr

/-- `walk(v)` of R181 from the directory at `dir`. It tests nothing but the two present bits (R186, R187). -/
def walkFrom (s : State) (dir v : Word) : Res Walk :=
  andThen (readWord s (pdeAddrIn dir v)) fun pde =>
    if entryP pde then
      andThen (readWord s (pteAddr pde v)) fun pte =>
        if entryP pte then .next (.mapped pde pte) else .next (.noPte pde)
    else .next .noPde

/-- `walk(v)` (R181): from the active page directory. -/
def walk (s : State) (v : Word) : Res Walk := walkFrom s (dirBase s) v

/-- The address whose entries a latched operation works on: "`v` is the page-aligned `virt` for MAP_PAGE and `virt`
itself for the others" (R182). -/
def mgrVirt : MgrOp → Word
  | .map m => m.virt
  | .query _ v => v

end Sys2Proof.Machine
end

