-- ==== Sys2Proof/Machine/Operands.lean ====
section
/-! DEFINITION. The result forms of the operations (spec 10_state.md R13, R15; 30_encoding.md R90): which result ports an
operation writes. A port it does not write holds no value afterwards. The operand forms are read once, by the decoder
(Sys2Proof/Decode.lean: `byteOf`, `flagsOf`, `halfOf`, `tableRefOf`). -/

namespace Sys2Proof.Machine

open Sys2Proof

/-- No result (formats T1, N0). -/
def resultNone (s : State) : State := s.setResults none none none

/-- One 32-bit result in `Y0` (formats E2, V1). -/
def resultWord (s : State) (y0 : Word) : State := s.setResults (some y0) none none

/-- A frame address in `Y0` and a flags record in `Y1[11:0]`, `Y1[31:12] = 0` (format E1). -/
def resultEntry (s : State) (frame : Word) (fl : FlagsRecord) : State := s.setResults (some frame) (some (fl.setWidth 32)) none

/-- A descriptor in `Y1 ++ Y0` (format S4). -/
def resultDescriptor (s : State) (d : Descriptor) : State :=
  s.setResults (some (d.extractLsb' 0 32)) (some (d.extractLsb' 32 32)) none

/-- What the host reads at a result port; `none`: it holds no value (R13). -/
def portHoldsValue (s : State) : ResultPort → Bool
  | .y0 => s.y0.isSome
  | .y1 => s.y1.isSome
  | .ok => s.ok.isSome

end Sys2Proof.Machine
end

