-- ==== Sys2Proof/Machine/EntryCodec.lean ====
section
/-! DEFINITION. The entry codec: ENC_PDE, DEC_PDE, ENC_PTE, DEC_PTE (spec 42_entry_codec.md). -/

namespace Sys2Proof.Machine

open Sys2Proof

/-- ENC_PDE (R140). -/
def execEncPde (pa : Word) (fl : FlagsRecord) (s : State) : Res State := .next (resultWord s (packPde pa fl))

/-- DEC_PDE (R141). -/
def execDecPde (e : Word) (s : State) : Res State := .next (resultEntry s (entryFrame e) (entryFlags e))

/-- ENC_PTE (R142). -/
def execEncPte (pa : Word) (fl : FlagsRecord) (s : State) : Res State := .next (resultWord s (packPte pa fl))

/-- DEC_PTE (R143). -/
def execDecPte (e : Word) (s : State) : Res State := .next (resultEntry s (entryFrame e) (entryFlags e))

end Sys2Proof.Machine
end

