-- ==== Sys2Proof/Machine/Flags.lean ====
section
/-! DEFINITION. The one status flag, `OK` (spec 10_state.md R15), as the Paging Manager's operations leave it
(44_paging_manager.md R182, 60_exceptions.md R253). -/

namespace Sys2Proof.Machine

open Sys2Proof

/-- A failure ends the operation: `OK = 0`, `Y0` and `Y1` hold no value, nothing else changes (R253). -/
def failOp (s : State) : State := (s.setResults none none (some false)).setPhase .idle

/-- Success with no other result (MAP_PAGE, UNMAP_PAGE, IS_MAPPED). -/
def succeedOp (s : State) : State := (s.setResults none none (some true)).setPhase .idle

/-- Success with a physical address in `Y0` (GET_PHYS, R200). -/
def succeedWith (s : State) (y0 : Word) : State := (s.setResults (some y0) none (some true)).setPhase .idle

end Sys2Proof.Machine
end

