-- ==== Sys2Proof/Machine/Tlb.lean ====
section
/-! DEFINITION. The TLB and the CPU's side of translation (spec 10_state.md R23, 45_cpu_primitives.md R223, R224, R228):
what the CPU may do to its TLB on its own, and how it translates an address. -/

namespace Sys2Proof.Machine

open Sys2Proof

/-- The directory the CPU walks: `CR3 & 0xFFFFF000` (R228; CR3 bits 11:0 are masked off, U23). -/
def cpuDir (s : State) : Word := s.cr3 &&& 0xFFFFF000#32

/-- The first address of a virtual page. -/
def pageBase (n : PageNumber) : Word := n.setWidth 32 <<< 12

/-- The frame of a 4 KiB page inside the 4 MiB page a PDE with `PS = 1` maps (R228): bits 31:22 of the PDE, then bits
21:12 of the address. -/
def bigPageFrame (pde : Word) (n : PageNumber) : PageNumber := (pde.extractLsb' 22 10 ++ n.extractLsb' 0 10 : BitVec 20)

/-- The flags the CPU caches with a 4 KiB page: a free combination of the two entries' low twelve bits (R228; log 6), but
for bit 8, which is the PTE's `G`: it is what makes the translation global (30_encoding.md R84). -/
def cachedFlags (pde pte : Word) : FlagsRecord :=
  (Config.combineFlags (entryFlags pde) (entryFlags pte) &&& 0xEFF#12) ||| (entryFlags pte &&& 0x100#12)

/-- What a walk of the tables now in memory gives the CPU to cache for a page (R23, R228), if the entries on the walk
are present and the memory holds them (log 7, log 8). -/
def cpuFillEntry (s : State) (n : PageNumber) : Option TlbEntry :=
  match readWord s (pdeAddrIn (cpuDir s) (pageBase n)) with
  | .next pde =>
    if entryP pde then
      if pdePs pde && Config.fourMiBPages then
        some { frame := bigPageFrame pde n, flags := Config.combineFlags (entryFlags pde) (entryFlags pde) }
      else
        match readWord s (pteAddr pde (pageBase n)) with
        | .next pte =>
          if entryP pte then some { frame := entryBase pte, flags := cachedFlags pde pte } else none
        | _ => none
    else none
  | _ => none

/-- One fill or drop (R23). -/
def tlbAct (s : State) (t : Tlb) : TlbAct → Tlb
  | .fill n =>
    match cpuFillEntry s n with
    | some e => Store.put t n.toNat e
    | none => t
  | .drop n => Store.del t n.toNat

/-- A list of fills and drops, in order. -/
def tlbActs (s : State) : Tlb → List TlbAct → Tlb
  | t, [] => t
  | t, a :: r => tlbActs s (tlbAct s t a) r

/-- The CPU's turn: any fills and drops, chosen by the free schedule (R23, R49 item 4; log 6). It changes nothing but
the TLB. -/
def cpuTurn (s : State) : State := s.setTlb (tlbActs s s.tlb (Config.cpuActs s.cpuTick)) (s.cpuTick + 1)

/-- The effect of P_INVLPG (R223): the page's entry goes, global or not; bits 11:0 are ignored. -/
def invalidatePage (s : State) (virt : Word) : State := s.setTlb (Store.del s.tlb (vpnOf virt).toNat) s.cpuTick

/-- Whether a cached entry is global: bit 8 of its flags (R83, R224). -/
def tlbGlobal (e : TlbEntry) : Bool := e.flags.getLsbD 8

/-- The effect of P_FLUSH_TLB (R224): every entry that is not global goes; each global entry may be kept or removed. -/
def flushTlb (s : State) : State :=
  s.setTlb (Store.keep (fun n e => tlbGlobal e && Config.keepsGlobal s.cpuTick n) s.tlb) (s.cpuTick + 1)

/-- What `translate` answers (R228). -/
inductive Translation where
  | phys (pa : Word)
  | pageFault
deriving DecidableEq, Repr

/-- How the CPU translates a virtual address with paging on (R228), but for the optional fill, which is a CPU turn's. -/
def translate (s : State) (v : Word) : Res Translation :=
  match Store.get s.tlb (vpnOf v).toNat with
  | some e => .next (.phys ((e.frame.setWidth 32 <<< 12) ||| pageOffset v))
  | none =>
    andThen (readWord s (pdeAddrIn (cpuDir s) v)) fun pde =>
      if entryP pde then
        if pdePs pde && Config.fourMiBPages then .next (.phys ((pde &&& 0xFFC00000#32) ||| (v &&& 0x003FFFFF#32)))
        else
          andThen (readWord s (pteAddr pde v)) fun pte =>
            if entryP pte then .next (.phys (frameAddress pte ||| pageOffset v)) else .next .pageFault
      else .next .pageFault

end Sys2Proof.Machine
end

