-- ==== Sys2Proof/Machine/Primitives.lean ====
section
/-! DEFINITION. The six CPU primitives (spec 45_cpu_primitives.md R220 to R226). They leave the block's ports and
phase alone. -/

namespace Sys2Proof.Machine

open Sys2Proof

/-- `Acceptable(GDTR, gdt, cs, ds)` (R222), with a selector whose index is above 5, so that it names no slot of the table, not
acceptable (log 17). As R222 has it, bit 2 of a selector is not tested. -/
def acceptable (c : Config) (g : Gdtr) (gdt : Vector Descriptor 6) : Bool :=
  match gdt[selectorIndex c.kernelCs]?, gdt[selectorIndex c.kernelDs]? with
  | some code, some data =>
    decide ((c.kernelCs &&& 0xFFF8#16).toNat + 7 ≤ g.limit.toNat) && decide ((c.kernelDs &&& 0xFFF8#16).toNat + 7 ≤ g.limit.toNat)
      && decide (g.base = c.gdtLinearBase)
      && accessP (descAccess code) && accessS (descAccess code) && accessE (descAccess code)
      && decide (accessDpl (descAccess code) = 0#2) && decide (selectorRpl c.kernelCs = 0#2)
      && accessP (descAccess data) && accessS (descAccess data) && !accessE (descAccess data) && accessRw (descAccess data)
      && decide (accessDpl (descAccess data) = 0#2) && decide (selectorRpl c.kernelDs = 0#2)
  | _, _ => false

/-- A descriptor as the CPU holds it once it has loaded a segment register with it: `A` (bit 40) is set (30_encoding.md R71:
"set by the CPU when the segment is loaded"; log 15). -/
def markLoaded (d : Descriptor) : Descriptor := d ||| 0x0000010000000000#64

/-- A segment register loaded with a selector: the CPU reads and caches the descriptor (R221), its `A` set (R71). The load
writes no slot of the table (41_gdt_table.md R126); `markDescriptor` does (log 15). -/
def loadSeg (gdt : Vector Descriptor 6) (sel : Half) : SegReg :=
  { selector := sel, cached := markLoaded ((gdt[selectorIndex sel]?).getD 0#64) }

/-- The segment registers after a reload (R221). -/
def reloadedSegs (c : Config) (gdt : Vector Descriptor 6) : SegRegs :=
  let ds := loadSeg gdt c.kernelDs
  { cs := loadSeg gdt c.kernelCs, ds := ds, es := ds, fs := ds, gs := ds, ss := ds }

/-- Whether a segment register was loaded from this slot of the table, and the slot still holds the descriptor loaded but
for `A`. -/
def loadedFrom (gdt : Vector Descriptor 6) (slot : Fin 6) (r : SegReg) : Bool :=
  decide (selectorIndex r.selector = slot) && decide (r.cached = markLoaded gdt[slot])

/-- The CPU's own write of `A` into the slot of a descriptor that it has loaded (R71); nothing where no segment register was
loaded from the slot (log 15). It may come again, with no new load, after a host write (R131) or a second INIT_GDT has put the
loaded descriptor back with `A` clear: R71 says only "when the segment is loaded" (DESIGN CHOICE, log 15). -/
def markDescriptor (s : State) (slot : Fin 6) : State :=
  if s.segs.regs.any (loadedFrom s.gdt slot) then s.setGdt (s.gdt.set slot (markLoaded s.gdt[slot])) else s

/-- The effect of P_LGDT (R220): the segment registers and their cached descriptors are unchanged. -/
def loadGdtr (s : State) (limit : Half) (base : Word) : State := s.setGdtr limit base

/-- The effect of P_RELOAD_SEGS (R221), indivisible (D26). -/
def reloadSegs (s : State) : Res State :=
  if acceptable s.cfg s.gdtr s.gdt then .next (s.setSegs (reloadedSegs s.cfg s.gdt)) else raiseFatal .badGdt

/-- P_LGDT (R220). -/
def execPLgdt (limit : Half) (base : Word) (s : State) : Res State := .next (loadGdtr s limit base)

/-- P_RELOAD_SEGS (R221). -/
def execPReloadSegs (s : State) : Res State := reloadSegs s

/-- P_INVLPG (R223). -/
def execPInvlpg (virt : Word) (s : State) : Res State := .next (invalidatePage s virt)

/-- P_FLUSH_TLB (R224). -/
def execPFlushTlb (s : State) : Res State := .next (flushTlb s)

/-- P_RD_CR3 (R225): the value goes to the caller (log 12). -/
def execPRdCr3 (s : State) : Res State := .next (s.setRet s.cr3)

/-- P_WR_CR3 (R226): `CR3 <- phys`, then the effect of P_FLUSH_TLB. An operand that differs from the current CR3 is
outside the spec and refused (R226, U16; log 11). -/
def execPWrCr3 (phys : Word) (s : State) : Res State :=
  if phys = s.cr3 then .next (flushTlb (s.setCr3 phys)) else .refused .cr3Switch

end Sys2Proof.Machine
end

