-- ==== Sys2Proof/Machine/Phases.lean ====
section
/-! DEFINITION. The phase machine (spec 44_paging_manager.md R182, 41_gdt_table.md R126, R128): one memory access or one
primitive per phase, and the CPU's turn after each (20_memory.md R49 item 4). -/

namespace Sys2Proof.Machine

open Sys2Proof

/-- CHECK. -/
def phaseCheck (op : MgrOp) (s : State) : Res State := if s.bound then .next (s.setPhase (.rdPde op)) else .next (failOp s)

/-- RD_PDE and its decision point RD_PDE'. -/
def phaseRdPde (op : MgrOp) (s : State) : Res State :=
  andThen (readWord s (pdeAddr s (mgrVirt op))) fun pde =>
    if entryP pde then
      match op with
      | .map m => .next (s.setPhase (.wrPde m pde))
      | .query k v => .next (s.setPhase (.rdPte k v pde))
    else .next (failOp s)

/-- WR_PDE (R190); the next phase writes the entry of R191. -/
def phaseWrPde (m : MapArgs) (pde : Word) (s : State) : Res State :=
  andThen (writeWord s (pdeAddr s m.virt) (updatePde s.cfg.pdeFlagMask pde m.pdeFlags)) fun t =>
    .next (t.setPhase (.wrPte m.virt pde (packPte m.phys m.pteFlags)))

/-- RD_PTE and its decision point RD_PTE'. -/
def phaseRdPte (k : QueryKind) (v pde : Word) (s : State) : Res State :=
  andThen (readWord s (pteAddr pde v)) fun pte =>
    if entryP pte then
      match k with
      | .unmap => .next (s.setPhase (.wrPte v pde 0#32))
      | .getPhys => .next (succeedWith s (frameAddress pte ||| pageOffset v))
      | .isMapped => .next (succeedOp s)
    else .next (failOp s)

/-- WR_PTE: write the entry and record the pending invalidation (R17). -/
def phaseWrPte (v pde newPte : Word) (s : State) : Res State :=
  andThen (writeWord s (pteAddr pde v) newPte) fun t => .next ((t.setPending true v).setPhase .inval)

/-- INVAL: `call P_INVLPG(inv_addr)`, clear the record, succeed. -/
def phaseInval (s : State) : Res State :=
  if s.invPending then .next (succeedOp ((invalidatePage s s.invAddr).setPending false s.invAddr)) else .fault .stuckPhase

/-- LGDT: `call P_LGDT` with the transient GDT pointer (R126). -/
def phaseLgdt (s : State) : Res State := .next ((loadGdtr s gdtPointerLimit s.cfg.gdtLinearBase).setPhase .reload)

/-- RELOAD: `call P_RELOAD_SEGS` (R126). -/
def phaseReload (s : State) : Res State := andThen (reloadSegs s) fun t => .next (t.setPhase .idle)

/-- The action of the current phase; in IDLE there is none. -/
def phaseAction (s : State) : Res State :=
  match s.ph with
  | .idle => .next s
  | .check op => phaseCheck op s
  | .rdPde op => phaseRdPde op s
  | .wrPde m pde => phaseWrPde m pde s
  | .rdPte k v pde => phaseRdPte k v pde s
  | .wrPte v pde newPte => phaseWrPte v pde newPte s
  | .inval => phaseInval s
  | .lgdt => phaseLgdt s
  | .reload => phaseReload s

/-- One phase, then the CPU's turn. -/
def phaseStep (s : State) : Res State := andThen (phaseAction s) fun t => .next (cpuTurn t)

/-- Phases until IDLE, at most `n` of them. -/
def runPhases : Nat → State → Res State
  | 0, s => .next s
  | n + 1, s =>
    match s.ph with
    | .idle => .next s
    | _ => andThen (phaseStep s) (runPhases n)

/-- Issue a manager operation: latch its operands and enter CHECK (R182 first row), then run it to completion: at most
5 phases after IDLE (R209). No result port holds a value until a phase writes it (R13). -/
def runManager (op : MgrOp) (s : State) : Res State := runPhases 5 ((resultNone s).setPhase (.check op))

/-- What the block does when no agent outside it acts: the next phase of the operation in progress, or nothing. -/
def continueBlock (s : State) : Res State :=
  match s.ph with
  | .idle => .next (cpuTurn s)
  | _ => phaseStep s

end Sys2Proof.Machine
end

