-- ==== Sys2Proof/Machine/GdtUnit.lean ====
section
/-! DEFINITION. The Descriptor Encoder and the GDT Table: ENC_DESC, INIT_GDT, LOAD_GDT (spec 40_descriptor_encoder.md,
41_gdt_table.md). -/

namespace Sys2Proof.Machine

open Sys2Proof

/-- ENC_DESC (R110). -/
def execEncDesc (base limit : Word) (access flags : Byte) (s : State) : Res State :=
  .next (resultDescriptor s (packDescriptor base limit access flags))

/-- INIT_GDT (R122); a null reference is the early return (R130; log 13). -/
def execInitGdt (t : TableRef) (s : State) : Res State :=
  match t with
  | .null => .next (resultNone s)
  | .table => .next (resultNone (s.setGdt builtGdt))

/-- LOAD_GDT (R126): phases LGDT and RELOAD (R128); a null reference is the early return (R130; log 13). -/
def execLoadGdt (t : TableRef) (s : State) : Res State :=
  match t with
  | .null => .next (resultNone s)
  | .table => runPhases 2 ((resultNone s).setPhase .lgdt)

end Sys2Proof.Machine
end

