-- ==== Sys2Proof/Machine/PagingManager.lean ====
section
/-! DEFINITION. The Paging Manager: INIT_RT, MAP_PAGE, UNMAP_PAGE, GET_PHYS, IS_MAPPED (spec 44_paging_manager.md). -/

namespace Sys2Proof.Machine

open Sys2Proof

/-- INIT_RT (R184). -/
def execInitRt (s : State) : Res State := .next (resultNone (s.bind (s.cfg.bootPageDirectory.extractLsb' 12 20)))

/-- MAP_PAGE (R188): both addresses page-aligned downward, then the phases of R182. -/
def execMapPage (virt phys : Word) (pdeFlags pteFlags : FlagsRecord) (s : State) : Res State :=
  runManager (.map { virt := alignPage virt, phys := alignPage phys, pdeFlags := pdeFlags, pteFlags := pteFlags }) s

/-- UNMAP_PAGE (R195). -/
def execUnmapPage (virt : Word) (s : State) : Res State := runManager (.query .unmap virt) s

/-- GET_PHYS (R200). -/
def execGetPhys (virt : Word) (s : State) : Res State := runManager (.query .getPhys virt) s

/-- IS_MAPPED (R203). -/
def execIsMapped (virt : Word) (s : State) : Res State := runManager (.query .isMapped virt) s

end Sys2Proof.Machine
end

