-- ==== Sys2Proof/Machine/Translator.lean ====
section
/-! DEFINITION. The Address Translator: V2P, P2V, DIR_IDX, TBL_IDX, PG_OFF, FRAME_ADDR (spec 43_address_translator.md). -/

namespace Sys2Proof.Machine

open Sys2Proof

/-- V2P (R160). -/
def execV2p (v : Word) (s : State) : Res State := .next (resultWord s (virtToPhys s.cfg.kernelVirtualBase v))

/-- P2V (R161). -/
def execP2v (p : Word) (s : State) : Res State := .next (resultWord s (physToVirt s.cfg.kernelVirtualBase p))

/-- DIR_IDX (R166). -/
def execDirIdx (v : Word) (s : State) : Res State := .next (resultWord s (dirIndex v))

/-- TBL_IDX (R167). -/
def execTblIdx (v : Word) (s : State) : Res State := .next (resultWord s (tblIndex v))

/-- PG_OFF (R168). -/
def execPgOff (v : Word) (s : State) : Res State := .next (resultWord s (pageOffset v))

/-- FRAME_ADDR (R169). -/
def execFrameAddr (e : Word) (s : State) : Res State := .next (resultWord s (frameAddress e))

end Sys2Proof.Machine
end

