-- ==== Sys2Proof/Machine/Dispatch.lean ====
section
/-! DEFINITION. The dispatch: one direct call of a meaning per row of the opcode table (spec 30_encoding.md R91, R92). -/

namespace Sys2Proof.Machine

open Sys2Proof

/-- The meaning of an instruction in a state. -/
def exec (i : Instr) (s : State) : Host.Outcome State Fault Refusal :=
  match i with
  | .encDesc base limit access flags => Sys2Proof.Machine.execEncDesc base limit access flags s
  | .initGdt t => Sys2Proof.Machine.execInitGdt t s
  | .loadGdt t => Sys2Proof.Machine.execLoadGdt t s
  | .encPde pa fl => Sys2Proof.Machine.execEncPde pa fl s
  | .decPde e => Sys2Proof.Machine.execDecPde e s
  | .encPte pa fl => Sys2Proof.Machine.execEncPte pa fl s
  | .decPte e => Sys2Proof.Machine.execDecPte e s
  | .v2p v => Sys2Proof.Machine.execV2p v s
  | .p2v p => Sys2Proof.Machine.execP2v p s
  | .dirIdx v => Sys2Proof.Machine.execDirIdx v s
  | .tblIdx v => Sys2Proof.Machine.execTblIdx v s
  | .pgOff v => Sys2Proof.Machine.execPgOff v s
  | .frameAddr e => Sys2Proof.Machine.execFrameAddr e s
  | .initRt => Sys2Proof.Machine.execInitRt s
  | .mapPage virt phys pf tf => Sys2Proof.Machine.execMapPage virt phys pf tf s
  | .unmapPage virt => Sys2Proof.Machine.execUnmapPage virt s
  | .getPhys virt => Sys2Proof.Machine.execGetPhys virt s
  | .isMapped virt => Sys2Proof.Machine.execIsMapped virt s
  | .pLgdt limit base => Sys2Proof.Machine.execPLgdt limit base s
  | .pReloadSegs => Sys2Proof.Machine.execPReloadSegs s
  | .pInvlpg virt => Sys2Proof.Machine.execPInvlpg virt s
  | .pFlushTlb => Sys2Proof.Machine.execPFlushTlb s
  | .pRdCr3 => Sys2Proof.Machine.execPRdCr3 s
  | .pWrCr3 phys => Sys2Proof.Machine.execPWrCr3 phys s

end Sys2Proof.Machine
end

