-- ==== Sys2Proof/Decode.lean ====
section
/-! DEFINITION. Decoding a command, total on every code and every port contents, rejecting by name; and the encoder
(spec 30_encoding.md R90 to R94, 10_state.md R12). -/

namespace Sys2Proof

/-- The rows of the opcode table, in its order. -/
def opcodes : List Opcode :=
  [.encDesc, .initGdt, .loadGdt, .encPde, .decPde, .encPte, .decPte, .v2p, .p2v, .dirIdx, .tblIdx, .pgOff, .frameAddr,
    .initRt, .mapPage, .unmapPage, .getPhys, .isMapped, .pLgdt, .pReloadSegs, .pInvlpg, .pFlushTlb, .pRdCr3, .pWrCr3]

/-- The code of each row (R91; R92 for the primitives). -/
def codeOf : Opcode → Byte
  | .encDesc => 0x01#8
  | .initGdt => 0x02#8
  | .loadGdt => 0x03#8
  | .encPde => 0x10#8
  | .decPde => 0x11#8
  | .encPte => 0x12#8
  | .decPte => 0x13#8
  | .v2p => 0x20#8
  | .p2v => 0x21#8
  | .dirIdx => 0x22#8
  | .tblIdx => 0x23#8
  | .pgOff => 0x24#8
  | .frameAddr => 0x25#8
  | .initRt => 0x30#8
  | .mapPage => 0x31#8
  | .unmapPage => 0x32#8
  | .getPhys => 0x33#8
  | .isMapped => 0x34#8
  | .pLgdt => 0x40#8
  | .pReloadSegs => 0x41#8
  | .pInvlpg => 0x42#8
  | .pFlushTlb => 0x43#8
  | .pRdCr3 => 0x44#8
  | .pWrCr3 => 0x45#8

/-- The operand format of each row (R91; R92 for the primitives). -/
def formatOfRow : Opcode → Format
  | .encDesc => .s4
  | .initGdt => .t1
  | .loadGdt => .t1
  | .encPde => .e2
  | .decPde => .e1
  | .encPte => .e2
  | .decPte => .e1
  | .v2p => .v1
  | .p2v => .v1
  | .dirIdx => .v1
  | .tblIdx => .v1
  | .pgOff => .v1
  | .frameAddr => .v1
  | .initRt => .n0
  | .mapPage => .m4
  | .unmapPage => .q1
  | .getPhys => .q1
  | .isMapped => .q1
  | .pLgdt => .primLgdt
  | .pReloadSegs => .primNone
  | .pInvlpg => .primWord
  | .pFlushTlb => .primNone
  | .pRdCr3 => .primNone
  | .pWrCr3 => .primWord

/-- The row a code selects; `none` for a reserved code (R93). -/
def opcodeOf (code : Byte) : Option Opcode := opcodes.find? fun o => decide (codeOf o = code)

/-- The operand format a code selects; `none` for a reserved code. -/
def formatOf (code : Byte) : Option Format := (opcodeOf code).map formatOfRow

/-- Why a command is no instruction for the channel it came on. -/
inductive DecodeError where
  /-- A reserved code (R93). -/
  | reserved (code : Byte)
  /-- A primitive code in `OP` (R92, R93: the host cannot issue it). -/
  | primitiveFromHost (code : Byte)
  /-- A request whose code is not one of P0 to P5 (R92). -/
  | notPrimitive (code : Byte)
deriving DecidableEq, Repr

/-- A table reference is bit 0 of its port (R12, R90 format T1). -/
def tableRefOf (w : Word) : TableRef := if w.getLsbD 0 then .table else .null

/-- A u8 operand is the low byte of its port (R12). -/
def byteOf (w : Word) : Byte := w.setWidth 8

/-- A flags record is bits 11:0 of its port (R12). -/
def flagsOf (w : Word) : FlagsRecord := w.setWidth 12

/-- A u16 operand is the low half of its port (R12). -/
def halfOf (w : Word) : Half := w.setWidth 16

/-- The codes of the CPU primitives in the opcode table (R92). -/
def isPrimitiveCode (code : Byte) : Bool := decide (0x40 ≤ code.toNat ∧ code.toNat ≤ 0x45)

/-- The instruction of a row with its operands taken from the ports (R90, R12). -/
def instrOf (o : Opcode) (c : Command) : Instr :=
  match o with
  | .encDesc => .encDesc c.a0 c.a1 (byteOf c.a2) (byteOf c.a3)
  | .initGdt => .initGdt (tableRefOf c.a0)
  | .loadGdt => .loadGdt (tableRefOf c.a0)
  | .encPde => .encPde c.a0 (flagsOf c.a1)
  | .decPde => .decPde c.a0
  | .encPte => .encPte c.a0 (flagsOf c.a1)
  | .decPte => .decPte c.a0
  | .v2p => .v2p c.a0
  | .p2v => .p2v c.a0
  | .dirIdx => .dirIdx c.a0
  | .tblIdx => .tblIdx c.a0
  | .pgOff => .pgOff c.a0
  | .frameAddr => .frameAddr c.a0
  | .initRt => .initRt
  | .mapPage => .mapPage c.a0 c.a1 (flagsOf c.a2) (flagsOf c.a3)
  | .unmapPage => .unmapPage c.a0
  | .getPhys => .getPhys c.a0
  | .isMapped => .isMapped c.a0
  | .pLgdt => .pLgdt (halfOf c.a0) c.a1
  | .pReloadSegs => .pReloadSegs
  | .pInvlpg => .pInvlpg c.a0
  | .pFlushTlb => .pFlushTlb
  | .pRdCr3 => .pRdCr3
  | .pWrCr3 => .pWrCr3 c.a0

/-- The instruction a command of the opcode table carries (R91 and R92 together). -/
def decode (c : Command) : Except DecodeError Instr :=
  match opcodeOf c.op with
  | some o => .ok (instrOf o c)
  | none => .error (.reserved c.op)

/-- What the host issues by writing `OP`: an operation of R91; a primitive code is refused (R93). -/
def decodeOperation (c : Command) : Except DecodeError Instr :=
  if isPrimitiveCode c.op then .error (.primitiveFromHost c.op) else decode c

/-- A request to the CPU: a primitive of R92 and nothing else. -/
def decodeRequest (c : Command) : Except DecodeError Instr :=
  if isPrimitiveCode c.op then decode c else .error (.notPrimitive c.op)

/-- A command with the given code and ports. -/
def Command.of (op : Byte) (a0 : Word := 0#32) (a1 : Word := 0#32) (a2 : Word := 0#32) (a3 : Word := 0#32) : Command :=
  { op := op, a0 := a0, a1 := a1, a2 := a2, a3 := a3 }

/-- A table reference as its port carries it: 1 = the table, 0 = null (R90 format T1). -/
def tableRefWord : TableRef → Word
  | .table => 1#32
  | .null => 0#32

/-- The row an instruction is an instance of. -/
def rowOf : Instr → Opcode
  | .encDesc .. => .encDesc
  | .initGdt _ => .initGdt
  | .loadGdt _ => .loadGdt
  | .encPde .. => .encPde
  | .decPde _ => .decPde
  | .encPte .. => .encPte
  | .decPte _ => .decPte
  | .v2p _ => .v2p
  | .p2v _ => .p2v
  | .dirIdx _ => .dirIdx
  | .tblIdx _ => .tblIdx
  | .pgOff _ => .pgOff
  | .frameAddr _ => .frameAddr
  | .initRt => .initRt
  | .mapPage .. => .mapPage
  | .unmapPage _ => .unmapPage
  | .getPhys _ => .getPhys
  | .isMapped _ => .isMapped
  | .pLgdt .. => .pLgdt
  | .pReloadSegs => .pReloadSegs
  | .pInvlpg _ => .pInvlpg
  | .pFlushTlb => .pFlushTlb
  | .pRdCr3 => .pRdCr3
  | .pWrCr3 _ => .pWrCr3

/-- The command that carries an instruction, ignored bits and unused ports zero (R90 to R92). -/
def encode (i : Instr) : Command :=
  let op := codeOf (rowOf i)
  match i with
  | .encDesc base limit access flags => .of op base limit (access.setWidth 32) (flags.setWidth 32)
  | .initGdt t => .of op (tableRefWord t)
  | .loadGdt t => .of op (tableRefWord t)
  | .encPde pa fl => .of op pa (fl.setWidth 32)
  | .decPde e => .of op e
  | .encPte pa fl => .of op pa (fl.setWidth 32)
  | .decPte e => .of op e
  | .v2p v => .of op v
  | .p2v p => .of op p
  | .dirIdx v => .of op v
  | .tblIdx v => .of op v
  | .pgOff v => .of op v
  | .frameAddr e => .of op e
  | .initRt => .of op
  | .mapPage virt phys pf tf => .of op virt phys (pf.setWidth 32) (tf.setWidth 32)
  | .unmapPage virt => .of op virt
  | .getPhys virt => .of op virt
  | .isMapped virt => .of op virt
  | .pLgdt limit base => .of op (limit.setWidth 32) base
  | .pReloadSegs => .of op
  | .pInvlpg virt => .of op virt
  | .pFlushTlb => .of op
  | .pRdCr3 => .of op
  | .pWrCr3 phys => .of op phys

/-- Whether an instruction is a CPU primitive (R92) and not an operation the host may issue (R91). -/
def Instr.isPrimitive (i : Instr) : Bool := isPrimitiveCode (encode i).op

/-- A command read from one number whose first eight bits are `OP` and whose later bits are the ports A0 to A3, each
little-endian (log 24): the operand ports are the operand words that follow the code. -/
def Command.ofNumber (w : Nat) : Command where
  op := BitVec.ofNat 8 w
  a0 := BitVec.ofNat 32 (w / 2 ^ 8)
  a1 := BitVec.ofNat 32 (w / 2 ^ 40)
  a2 := BitVec.ofNat 32 (w / 2 ^ 72)
  a3 := BitVec.ofNat 32 (w / 2 ^ 104)

/-- The instruction the decoder reads from an instruction of the opcode table whose bits are `w`; every bit above
`nbits` is zero. -/
def decodeTableWord (nbits w : Nat) : Option Instr :=
  match decode (Command.ofNumber (w % 2 ^ nbits)) with
  | .ok i => some i
  | .error _ => none

end Sys2Proof
end

