-- ==== Sys2Proof/WellFormed.lean ====
section
/-! DEFINITION. Well-formed commands. The widths of an `Instr`'s operands are in its type, so every `Instr` is
well formed as it stands; what can be ill formed is the command that carries it. A command is well formed when its code
is one of the opcode table and every bit the operation ignores (10_state.md R12, 30_encoding.md R94) is zero. Decoding
does not ask for this (ignored bits are ignored); it is the canonical form the encoder produces. -/

namespace Sys2Proof

/-- Every bit of the port at or above bit `n` is zero. -/
def Word.fits (w : Word) (n : Nat) : Bool := decide (w.toNat < 2 ^ n)

/-- How many low bits of each of the ports A0 to A3 a format uses (R90, R12; R92 for the primitives). -/
def Format.portWidths : Format → Nat × Nat × Nat × Nat
  | .s4 => (32, 32, 8, 8)
  | .t1 => (1, 0, 0, 0)
  | .e2 => (32, 12, 0, 0)
  | .e1 => (32, 0, 0, 0)
  | .v1 => (32, 0, 0, 0)
  | .n0 => (0, 0, 0, 0)
  | .m4 => (32, 32, 12, 12)
  | .q1 => (32, 0, 0, 0)
  | .primLgdt => (16, 32, 0, 0)
  | .primNone => (0, 0, 0, 0)
  | .primWord => (32, 0, 0, 0)

/-- The canonical commands: a code of the table, and zero in every ignored bit and unused port. -/
def Command.wellFormed (c : Command) : Bool :=
  match formatOf c.op with
  | none => false
  | some f =>
    let (n0, n1, n2, n3) := f.portWidths
    Word.fits c.a0 n0 && Word.fits c.a1 n1 && Word.fits c.a2 n2 && Word.fits c.a3 n3

end Sys2Proof
end

