-- ==== Sys2Proof/Machine/Inputs.lean ====
section
/-! DEFINITION. What an action of an agent outside the block does (spec 10_state.md R10, R11, R14; log 4). -/

namespace Sys2Proof.Machine

open Sys2Proof

/-- The refusal of a command that is no instruction for its channel. -/
def refusalOf : DecodeError → Refusal
  | .reserved code => .reservedCode code
  | .primitiveFromHost code => .primitiveFromHost code
  | .notPrimitive code => .notPrimitive code

/-- Run what was decoded, or refuse it by name (R93: no step, no state change). -/
def runDecoded (d : Except DecodeError Instr) (s : State) : Res State :=
  match d with
  | .ok i => exec i s
  | .error e => .refused (refusalOf e)

/-- The first phase of an operation, with its operands latched (44_paging_manager.md R182 first row, 41_gdt_table.md
R128); `none`: it completes without leaving IDLE (R14). -/
def firstPhase : Instr → Option Phase
  | .encDesc .. => none
  | .initGdt _ => none
  | .loadGdt .null => none
  | .loadGdt .table => some .lgdt
  | .encPde .. => none
  | .decPde _ => none
  | .encPte .. => none
  | .decPte _ => none
  | .v2p _ => none
  | .p2v _ => none
  | .dirIdx _ => none
  | .tblIdx _ => none
  | .pgOff _ => none
  | .frameAddr _ => none
  | .initRt => none
  | .mapPage virt phys pf tf =>
    some (.check (.map { virt := alignPage virt, phys := alignPage phys, pdeFlags := pf, pteFlags := tf }))
  | .unmapPage virt => some (.check (.query .unmap virt))
  | .getPhys virt => some (.check (.query .getPhys virt))
  | .isMapped virt => some (.check (.query .isMapped virt))
  | .pLgdt .. => none
  | .pReloadSegs => none
  | .pInvlpg _ => none
  | .pFlushTlb => none
  | .pRdCr3 => none
  | .pWrCr3 _ => none

/-- Begin an operation: enter its first phase, or, where it has none, run it. -/
def beginOp (i : Instr) (s : State) : Res State :=
  match firstPhase i with
  | some p => .next ((resultNone s).setPhase p)
  | none => exec i s

/-- Begin what was decoded, or refuse it by name (R93). -/
def beginDecoded (d : Except DecodeError Instr) (s : State) : Res State :=
  match d with
  | .ok i => beginOp i s
  | .error e => .refused (refusalOf e)

/-- The host acts only when `ph = IDLE` (R14, R290). -/
def whenIdle (s : State) (r : Res State) : Res State :=
  match s.ph with
  | .idle => r
  | _ => .refused .busy

/-- The CPU sets a bit of the entry at `pa` (R53), where there is an entry to use. -/
def markEntry (s : State) (pa bits : Word) : State :=
  match readWord s pa with
  | .next e => if entryP e then s.setMem (putWord s.mem pa (e ||| bits)) else s
  | _ => s

/-- Whether the CPU goes on from this PDE to a page table: present, and not a 4 MiB page (R228). -/
def usesTable (pde : Word) : Bool := entryP pde && !(pdePs pde && Config.fourMiBPages)

/-- The CPU's update of the accessed bit (5) or the dirty bit (6) of an entry it uses for a page (R53; log 16). -/
def cpuMarks (s : State) (n : PageNumber) (m : CpuMark) : State :=
  let v := pageBase n
  let pdeAt := pdeAddrIn (cpuDir s) v
  match m with
  | .pdeAccessed => markEntry s pdeAt 0x20#32
  | .pteAccessed =>
    match readWord s pdeAt with
    | .next pde => if usesTable pde then markEntry s (pteAddr pde v) 0x20#32 else s
    | _ => s
  | .pteDirty =>
    match readWord s pdeAt with
    | .next pde => if usesTable pde then markEntry s (pteAddr pde v) 0x40#32 else s
    | _ => s

/-- One action, in a state it has been taken from. A host write of a slot is taken at any idle time, so the slots may hold
values that no INIT_GDT put there (DESIGN CHOICE, log 26); and so is a load of CR3, which removes no TLB entry (DESIGN
CHOICE, log 27). A request for any of the six primitives is taken at any idle time, P_LGDT with any limit and base and
P_RELOAD_SEGS alone too, though R220 and R221 name no caller but LOAD_GDT: so the host can put a former `GDTR` back, which no
operation of the block does (41_gdt_table.md R129; DESIGN CHOICE, log 28). A read of a result port that holds no value is the
fault the spec asks for (10_state.md R13, D16, U13). -/
def takeInput (i : Input) (s : State) : Res State :=
  match i with
  | .writePort p v => whenIdle s (.next (s.setPort p v))
  | .issue code => whenIdle s (runDecoded (decodeOperation (s.setOp code).command) (s.setOp code))
  | .issueStepwise code => whenIdle s (beginDecoded (decodeOperation (s.setOp code).command) (s.setOp code))
  | .nextPhase => runPhases 1 s
  | .readPort p => whenIdle s (if portHoldsValue s p then .next s else .fault .noValue)
  | .primitive c => whenIdle s (runDecoded (decodeRequest c) s)
  | .storeByte pa v => whenIdle s (writeByte s pa v)
  | .writeGdt slot d => whenIdle s (.next (s.setGdt (s.gdt.set slot d)))
  | .loadCr3 v => whenIdle s (.next (s.setCr3 v))
  | .cpuMark n m => .next (cpuMarks s n m)
  | .cpuMarkDescriptor slot => .next (markDescriptor s slot)

end Sys2Proof.Machine
end

