-- ==== Sys2Proof/Machine/Step.lean ====
section
/-! DEFINITION. One step of the machine, and the placing of one instruction where the next step takes it from. -/

namespace Sys2Proof.Machine

open Sys2Proof

/-- One step: the CPU's turn and the oldest action of the agents outside the block; with none waiting, the next phase of
the operation in progress, or nothing (70_reset_and_hazards.md R280: "the block does nothing until the host issues an
operation"). An issued operation runs to completion in its step ("the host observes only the atomic operation", R182) or, issued
stepwise, enters its first phase, and goes on one phase per step: at each `nextPhase` taken, or when no action waits
(log 5). -/
def step (s : State) : Host.Outcome State Fault Refusal :=
  match s.inputs with
  | [] => continueBlock s
  | i :: rest => takeInput i (cpuTurn (s.setInputs rest))

/-- Place an instruction of the opcode table where the next step takes it from (log 4, log 12, log 24): the operand
ports written and the issue of its code waiting, or, for a CPU primitive, its request waiting; the block idle. -/
def State.withFetchWord (s : State) (nbits w : Nat) : State :=
  let c := Command.ofNumber (w % 2 ^ nbits)
  if isPrimitiveCode c.op then { s with ph := .idle, inputs := .primitive c :: s.inputs }
  else { s with ph := .idle, a0 := c.a0, a1 := c.a1, a2 := c.a2, a3 := c.a3, inputs := .issue c.op :: s.inputs }

end Sys2Proof.Machine
end

