-- ==== Sys2Proof/Safety.lean ====
section
/-! DEFINITION. What counts as a sound state and a safe run, in the terms the statements use. -/

namespace Sys2Proof.Machine

open Sys2Proof

/-- What `ph` says about the rest of the state (44_paging_manager.md R182): a manager operation past CHECK has found the
manager bound, and past RD_PDE a present PDE. -/
def phaseSound (s : State) : Prop :=
  match s.ph with
  | .idle => True
  | .check _ => True
  | .rdPde _ => s.bound = true
  | .wrPde _ pde => s.bound = true ∧ entryP pde = true
  | .rdPte _ _ pde => s.bound = true ∧ entryP pde = true
  | .wrPte _ pde _ => s.bound = true ∧ entryP pde = true
  | .inval => s.bound = true
  | .lgdt => True
  | .reload => True

/-- The invariant every step keeps: memory and TLB in canonical form, the invalidation record pending exactly in phase
INVAL (10_state.md R17: "when `ph = IDLE`, `inv_pending = 0`"), the phase sound, and the parameters within their
constraints (00_scope.md R6). -/
def State.Inv (s : State) : Prop :=
  Memory.wf s.mem = true ∧ Tlb.wf s.tlb = true ∧ (s.invPending = true ↔ s.ph = .inval) ∧ phaseSound s ∧ s.cfg.wf = true

/-- The acts of the CPU's `n` turns from tick `k` on, in order (10_state.md R23; the schedule is free, log 6). -/
def turnActs (k : Nat) : Nat → List TlbAct
  | 0 => []
  | n + 1 => turnActs k n ++ Config.cpuActs (k + n)

/-- Between `s` and `t` the TLB changed only by the CPU's own turns, as many as `cpuTick` counts, filling from the tables of `s`
or dropping (10_state.md R23; log 6), and by no primitive. -/
def OnlyCpuActs (s t : State) : Prop :=
  ∃ n, t.cpuTick = s.cpuTick + n ∧ t.tlb = tlbActs s s.tlb (turnActs s.cpuTick n)

/-- How an operation that fails or only answers leaves the machine: the given result ports, `ph = IDLE`, and everything
else as it was, but for the CPU's own acts on its TLB (60_exceptions.md R253). -/
def OnlyAnswers (s t : State) (y0 : Option Word) (ok : Option Bool) : Prop :=
  t = { s with y0 := y0, y1 := none, ok := ok, ph := .idle, tlb := t.tlb, cpuTick := t.cpuTick } ∧ OnlyCpuActs s t

/-- Address `a` is none of the four bytes of the word at `pa`. -/
def OutsideWord (pa : Word) (a : Nat) : Prop := a < pa.toNat ∨ pa.toNat + 3 < a

/-- `Acceptable(GDTR, gdt, cs, ds)` as R222 writes it, on the bits of the two descriptors (access byte at bits 47:40), for
selectors that name a slot of the table: index at most 5 (log 17). -/
def TableAcceptable (c : Config) (g : Gdtr) (gdt : Vector Descriptor 6) : Prop :=
  ∃ code data : Descriptor, gdt[c.kernelCs.toNat / 8]? = some code ∧ gdt[c.kernelDs.toNat / 8]? = some data
    ∧ c.kernelCs.toNat / 8 * 8 + 7 ≤ g.limit.toNat ∧ c.kernelDs.toNat / 8 * 8 + 7 ≤ g.limit.toNat
    ∧ g.base = c.gdtLinearBase
    ∧ code.getLsbD 47 = true ∧ code.getLsbD 44 = true ∧ code.getLsbD 43 = true
    ∧ code.getLsbD 46 = false ∧ code.getLsbD 45 = false ∧ c.kernelCs.toNat % 4 = 0
    ∧ data.getLsbD 47 = true ∧ data.getLsbD 44 = true ∧ data.getLsbD 43 = false ∧ data.getLsbD 41 = true
    ∧ data.getLsbD 46 = false ∧ data.getLsbD 45 = false ∧ c.kernelDs.toNat % 4 = 0

/-- A segment register was loaded from slot `k` of the table: its selector's index names the slot (30_encoding.md R79), and
its cached descriptor is the slot's, with `A` set (R71). -/
def LoadedFrom (s : State) (k : Fin 6) : Prop :=
  ∃ r ∈ [s.segs.cs, s.segs.ds, s.segs.es, s.segs.fs, s.segs.gs, s.segs.ss],
    r.selector.toNat / 8 = k.val ∧ r.cached = s.gdt[k] ||| 0x0000010000000000#64

/-- The TLB entry of page `n` in `t` is the one in `s`, or gone, or what a fill (10_state.md R23) gives when memory is one
of `mems`. -/
def EntryKeptDroppedOrFilled (s t : State) (mems : List Memory) (n : PageNumber) : Prop :=
  Store.get t.tlb n.toNat = Store.get s.tlb n.toNat ∨ Store.get t.tlb n.toNat = none
    ∨ ∃ m ∈ mems, Store.get t.tlb n.toNat = cpuFillEntry { s with mem := m } n

/-- The segment registers after a reload (R221): the data registers hold the data selector, CS the code selector, each
with the descriptor its selector names, cached with `A` set (30_encoding.md R71; log 15). -/
def SegsReloaded (c : Config) (gdt : Vector Descriptor 6) (r : SegRegs) : Prop :=
  ∃ code data : Descriptor, gdt[c.kernelCs.toNat / 8]? = some code ∧ gdt[c.kernelDs.toNat / 8]? = some data
    ∧ r.cs = { selector := c.kernelCs, cached := code ||| 0x0000010000000000#64 }
    ∧ r.ds = { selector := c.kernelDs, cached := data ||| 0x0000010000000000#64 }
    ∧ r.es = r.ds ∧ r.fs = r.ds ∧ r.gs = r.ds ∧ r.ss = r.ds

end Sys2Proof.Machine
end

