-- ==== Sys2Proof/Certificates/Slice0/Obligations.lean ====
section
/-! DEFINITION. The statements for the provers, each from a rule of spec/. Where a state is written
`{ s with … , tlb := t.tlb, cpuTick := t.cpuTick }`, everything not named is unchanged and a clause beside it describes the
TLB: the CPU may fill and drop entries at any time (10_state.md R23). "log n" names a choice of the model's
(notes/assumptions/n.md). -/

open Sys2Proof Sys2Proof.Machine

/-! ### Decoding and the step -/

/-- Decoding an encoded instruction gives it back, on the channel it belongs to (30_encoding.md R90 to R92), and the
operation channel refuses a primitive's code by name (R93). The request channel, the ports a primitive's operands sit in and
that channel's refusal of an operation's code (`notPrimitive`) are the model's (log 12). -/
def Obligations.DecodeOfEncodeIsTheInstruction : Prop :=
  ∀ i : Instr, decode (encode i) = .ok i
    ∧ (i.isPrimitive = true → decodeRequest (encode i) = .ok i
        ∧ decodeOperation (encode i) = .error (.primitiveFromHost (encode i).op))
    ∧ (i.isPrimitive = false → decodeOperation (encode i) = .ok i
        ∧ decodeRequest (encode i) = .error (.notPrimitive (encode i).op))

/-- Every canonical command (a code of the table, zero in every ignored bit and unused port) decodes, and encodes back to
itself: no code and no operand bit has two meanings (R91, R92, R94). -/
def Obligations.CanonicalCommandsDecodeAndEncodeBack : Prop :=
  ∀ c : Command, c.wellFormed = true → ∃ i, decode c = .ok i ∧ encode i = c

/-- The bits an operation's rule does not name are ignored (10_state.md R12, 30_encoding.md R94): two commands with one
code that agree on the port bits of its format decode alike. -/
def Obligations.IgnoredPortBitsNeverMatter : Prop :=
  ∀ (c d : Command) (f : Format) (n0 n1 n2 n3 : Nat), c.op = d.op → formatOf c.op = some f → f.portWidths = (n0, n1, n2, n3) →
    c.a0.toNat % 2 ^ n0 = d.a0.toNat % 2 ^ n0 → c.a1.toNat % 2 ^ n1 = d.a1.toNat % 2 ^ n1 →
    c.a2.toNat % 2 ^ n2 = d.a2.toNat % 2 ^ n2 → c.a3.toNat % 2 ^ n3 = d.a3.toNat % 2 ^ n3 → decode c = decode d

/-- A few words written out from R91 and the programs of 95_test_vectors.md decode to the instruction they stand for. The
ports of the P_LGDT word (limit in A0, base in A1) are the model's layout (log 12), not a word of the spec. -/
def Obligations.WrittenOutWordsDecode : Prop :=
  decode (.of 0x01#8 0x12345678#32 0x000ABCDE#32 0x0000009A#32 0x000000C0#32)
      = .ok (.encDesc 0x12345678#32 0x000ABCDE#32 0x9A#8 0xC0#8)
    ∧ decode (.of 0x03#8 0x00000001#32) = .ok (.loadGdt .table)
    ∧ decode (.of 0x10#8 0x00102ABC#32 0x00000003#32) = .ok (.encPde 0x00102ABC#32 0x003#12)
    ∧ decode (.of 0x20#8 0xC0102000#32) = .ok (.v2p 0xC0102000#32)
    ∧ decode (.of 0x31#8 0x00803ABC#32 0x00205DEF#32 0x00000003#32 0x00000007#32)
      = .ok (.mapPage 0x00803ABC#32 0x00205DEF#32 0x003#12 0x007#12)
    ∧ decode (.of 0x40#8 0x0000002F#32 0xC0104000#32) = .ok (.pLgdt 0x002F#16 0xC0104000#32)

/-- Every reserved code, and every primitive code the host writes to `OP`, is refused: no step, no state change (R93). It is
so for both forms of issuing; the stepwise one is the model's (log 5). -/
def Obligations.ReservedAndPrimitiveCodesAreRefused : Prop :=
  ∀ (s : State) (code : Byte) (rest : List Input),
    (s.inputs = .issue code :: rest ∨ s.inputs = .issueStepwise code :: rest) → s.ph = .idle →
    (code.toNat = 0x00 ∨ (0x04 ≤ code.toNat ∧ code.toNat ≤ 0x0F) ∨ (0x14 ≤ code.toNat ∧ code.toNat ≤ 0x1F)
      ∨ (0x26 ≤ code.toNat ∧ code.toNat ≤ 0x2F) ∨ 0x35 ≤ code.toNat) →
    step s = .refused (if 0x40 ≤ code.toNat ∧ code.toNat ≤ 0x45 then .primitiveFromHost code else .reservedCode code)

/-- The step runs the operation the host issues (R11): when the code written to `OP` and the operand ports decode to `i`,
the step is `exec i` of the state with the input taken, `OP` written and the CPU's turn taken (its acts are free: log 6;
that an operation is one step: log 5). -/
def Obligations.StepRunsTheIssuedOperation : Prop :=
  ∀ (s : State) (code : Byte) (rest : List Input) (i : Instr), s.inputs = .issue code :: rest → s.ph = .idle →
    decodeOperation { op := code, a0 := s.a0, a1 := s.a1, a2 := s.a2, a3 := s.a3 } = .ok i →
    step s = exec i { s with inputs := rest, op := code, tlb := tlbActs s s.tlb (Config.cpuActs s.cpuTick),
                             cpuTick := s.cpuTick + 1 }

/-- An operation issued stepwise, with nothing else waiting, ends within five further steps as the operation run whole ends:
in the very state it answers, or in the stop it ends in (R182, R209; the two forms of issuing are the model's, log 5). -/
def Obligations.StepwiseIssueReachesTheAtomicResult : Prop :=
  ∀ (s s' : State) (code : Byte) (i : Instr), s.inputs = [.issueStepwise code] → s.ph = .idle →
    decodeOperation { op := code, a0 := s.a0, a1 := s.a1, a2 := s.a2, a3 := s.a3 } = .ok i →
    s' = { s with inputs := [], op := code, tlb := tlbActs s s.tlb (Config.cpuActs s.cpuTick), cpuTick := s.cpuTick + 1 } →
    (∀ t, exec i s' = .next t → ∃ k, k ≤ 5 ∧ Host.Core.run core (k + 1) s = .next t)
    ∧ (∀ e, exec i s' = .fault e → ∃ k, k ≤ 5 ∧ Host.Core.run core (k + 1) s = .fault e)
    ∧ (∀ e, exec i s' = .refused e → ∃ k, k ≤ 5 ∧ Host.Core.run core (k + 1) s = .refused e)

/-- The step runs the CPU primitive the host's own code requests (R92, R227). The request channel is log 12's, and that P_LGDT
and P_RELOAD_SEGS may be requested too, where R220 and R221 name no caller but LOAD_GDT, is log 28's. -/
def Obligations.StepRunsTheRequestedPrimitive : Prop :=
  ∀ (s : State) (c : Command) (rest : List Input) (i : Instr), s.inputs = .primitive c :: rest → s.ph = .idle →
    decodeRequest c = .ok i →
    step s = exec i { s with inputs := rest, tlb := tlbActs s s.tlb (Config.cpuActs s.cpuTick), cpuTick := s.cpuTick + 1 }

/-- With no action waiting the step is the next phase of the operation in progress (R182), and in IDLE only the CPU acts
(70_reset_and_hazards.md R280). The action `nextPhase`, by which the CPU's updates get their place between two phases, is the
same after the CPU's turn of the step (the model's, log 5). -/
def Obligations.StepWithNoInputContinuesTheOperation : Prop :=
  ∀ s u : State, u = { s with inputs := s.inputs.tail, tlb := tlbActs s s.tlb (Config.cpuActs s.cpuTick),
                              cpuTick := s.cpuTick + 1 } →
    (s.inputs = [] → s.ph = .idle → step s = .next u)
    ∧ (s.inputs = [] → s.ph ≠ .idle → step s = phaseStep s)
    ∧ (∀ rest, s.inputs = .nextPhase :: rest → s.ph = .idle → step s = .next u)
    ∧ (∀ rest, s.inputs = .nextPhase :: rest → s.ph ≠ .idle → step s = phaseStep u)

/-- The host may act only when `ph = IDLE`: in any other phase every action of the host is refused. R14 and R290 say so of
an issued operation; that port writes and reads, stores, table writes, the CR3 load and the host's own primitives are refused
there too is the model's choice (log 4, log 12). -/
def Obligations.HostActionsOutsideIdleAreRefused : Prop :=
  ∀ (s : State) (i : Input) (rest : List Input), s.inputs = i :: rest → (∀ n m, i ≠ .cpuMark n m) →
    (∀ k, i ≠ .cpuMarkDescriptor k) → i ≠ .nextPhase → s.ph ≠ .idle → step s = .refused .busy

/-- The host's read of a result port that holds no value is a fault, and of one that holds a value changes nothing but
what the CPU does to its TLB. R13 leaves a model two ways for the first (a fault, or `none`); the fault is the one the model
takes (log 14, after 92_eei_decisions.md D16). -/
def Obligations.ReadingAPortWithoutAValueFaults : Prop :=
  ∀ (s : State) (rest : List Input), s.ph = .idle →
    (s.inputs = .readPort .y0 :: rest → s.y0 = none → step s = .fault .noValue)
    ∧ (s.inputs = .readPort .y1 :: rest → s.y1 = none → step s = .fault .noValue)
    ∧ (s.inputs = .readPort .ok :: rest → s.ok = none → step s = .fault .noValue)
    ∧ (s.inputs = .readPort .y0 :: rest ∧ s.y0 ≠ none ∨ s.inputs = .readPort .y1 :: rest ∧ s.y1 ≠ none
        ∨ s.inputs = .readPort .ok :: rest ∧ s.ok ≠ none →
        ∃ t, step s = .next t ∧ t = { s with inputs := rest, tlb := t.tlb, cpuTick := t.cpuTick } ∧ OnlyCpuActs s t)

/-- What the host's other actions do in IDLE (R10, R11, R18, R21, 41_gdt_table.md R131): beside the CPU's turn with which every
step begins (log 6), each changes its one target and nothing else, no TLB entry among it; a write to the table leaves `GDTR` and
the segment registers, with their cached descriptors, alone until the next reload (R131). The forms of these actions are the
model's (log 4), and so are the store of one byte and its refusal where there is no memory (log 19), that a slot may be written
at any idle time, before INIT_GDT or LOAD_GDT has run too (log 26), and that CR3 may be loaded at any idle time, no TLB entry
removed (log 27). -/
def Obligations.HostActionsChangeOnlyTheirTarget : Prop :=
  ∀ (s u : State) (rest : List Input), s.ph = .idle →
    u = { s with inputs := rest, tlb := tlbActs s s.tlb (Config.cpuActs s.cpuTick), cpuTick := s.cpuTick + 1 } →
    (∀ p v, s.inputs = .writePort p v :: rest →
      step s = .next { u with a0 := if p = .a0 then v else s.a0, a1 := if p = .a1 then v else s.a1,
                              a2 := if p = .a2 then v else s.a2, a3 := if p = .a3 then v else s.a3 })
    ∧ (∀ slot d, s.inputs = .writeGdt slot d :: rest → ∃ g, step s = .next { u with gdt := g }
      ∧ ∀ (k : Nat) (h : k < 6), g[k] = if k = slot.val then d else s.gdt[k])
    ∧ (∀ v, s.inputs = .loadCr3 v :: rest → step s = .next { u with cr3 := v })
    ∧ (∀ pa v, s.inputs = .storeByte pa v :: rest →
      (isBacked s.cfg pa = true → ∃ m, step s = .next { u with mem := m } ∧ Store.get m pa.toNat = some v
        ∧ ∀ a, a ≠ pa.toNat → Store.get m a = Store.get s.mem a)
      ∧ (isBacked s.cfg pa = false → step s = .refused .unbacked))

/-! ### The descriptor encoder -/

/-- R73, R113: every field of the descriptor ENC_DESC puts in `Y1 ++ Y0`, each in its place, `access` verbatim; nothing
else changes. -/
def Obligations.EncDescPutsEveryFieldInItsPlace : Prop :=
  ∀ (s : State) (base limit : Word) (access flags : Byte), ∃ d : Descriptor,
    exec (.encDesc base limit access flags) s
      = .next { s with y0 := some (d.extractLsb' 0 32), y1 := some (d.extractLsb' 32 32), ok := none }
    ∧ d.extractLsb' 0 16 = (BitVec.ofNat 20 (min limit.toNat 0xFFFFF)).extractLsb' 0 16
    ∧ d.extractLsb' 16 16 = base.extractLsb' 0 16
    ∧ d.extractLsb' 32 8 = base.extractLsb' 16 8
    ∧ d.extractLsb' 40 8 = access
    ∧ d.extractLsb' 48 4 = (BitVec.ofNat 20 (min limit.toNat 0xFFFFF)).extractLsb' 16 4
    ∧ d.extractLsb' 52 4 = flags.extractLsb' 4 4
    ∧ d.extractLsb' 56 8 = base.extractLsb' 24 8

/-- R111: the limit is clamped, not masked, and clamping is idempotent. -/
def Obligations.EncDescClampsTheLimit : Prop :=
  ∀ (s : State) (base limit : Word) (access flags : Byte),
    exec (.encDesc base limit access flags) s
      = exec (.encDesc base (BitVec.ofNat 32 (min limit.toNat 0xFFFFF)) access flags) s
    ∧ (0x100000 ≤ limit.toNat → ∃ d : Descriptor, descLimit d = 0xFFFFF#20
        ∧ exec (.encDesc base limit access flags) s
          = .next { s with y0 := some (d.extractLsb' 0 32), y1 := some (d.extractLsb' 32 32), ok := none })

/-- R112: the low nibble of `flags` never reaches the descriptor; the flags byte's low nibble is the limit's. -/
def Obligations.EncDescDiscardsTheLowFlagsNibble : Prop :=
  ∀ (s : State) (base limit : Word) (access flags : Byte),
    exec (.encDesc base limit access flags) s = exec (.encDesc base limit access (flags &&& 0xF0#8)) s
    ∧ (∃ d : Descriptor, d.extractLsb' 48 8 = 0x4F#8 ∧ exec (.encDesc base 0x1FFFFF#32 access 0x4F#8) s
        = .next { s with y0 := some (d.extractLsb' 0 32), y1 := some (d.extractLsb' 32 32), ok := none })
    ∧ (∃ d : Descriptor, d.extractLsb' 48 8 = 0x40#8 ∧ exec (.encDesc base 0#32 access 0x4F#8) s
        = .next { s with y0 := some (d.extractLsb' 0 32), y1 := some (d.extractLsb' 32 32), ok := none })

/-- R74: the field view of a descriptor is the inverse of ENC_DESC. -/
def Obligations.FieldViewInvertsEncDesc : Prop :=
  ∀ s : State,
    (∀ d : Descriptor, exec (.encDesc (descBase d) ((descLimit d).setWidth 32) (descAccess d) (descFlags d)) s
      = .next { s with y0 := some (d.extractLsb' 0 32), y1 := some (d.extractLsb' 32 32), ok := none })
    ∧ (∀ (base limit : Word) (access flags : Byte), ∃ d : Descriptor,
        exec (.encDesc base limit access flags) s
          = .next { s with y0 := some (d.extractLsb' 0 32), y1 := some (d.extractLsb' 32 32), ok := none }
        ∧ descBase d = base ∧ descAccess d = access ∧ (descLimit d).toNat = min limit.toNat 0xFFFFF
        ∧ descFlags d = flags &&& 0xF0#8)

/-- R115: all ones, and ENC_DESC is injective on canonical inputs, with every u64 in its image. -/
def Obligations.EncDescIsOneToOneAndOnto : Prop :=
  ∀ s : State,
    exec (.encDesc 0xFFFFFFFF#32 0xFFFFFFFF#32 0xFF#8 0xFF#8) s
      = .next { s with y0 := some 0xFFFFFFFF#32, y1 := some 0xFFFFFFFF#32, ok := none }
    ∧ (∀ (b l b' l' : Word) (a f a' f' : Byte), l.toNat ≤ 0xFFFFF → l'.toNat ≤ 0xFFFFF → f.toNat % 16 = 0 →
        f'.toNat % 16 = 0 → exec (.encDesc b l a f) s = exec (.encDesc b' l' a' f') s → b = b' ∧ l = l' ∧ a = a' ∧ f = f')
    ∧ (∀ d : Descriptor, ∃ (b l : Word) (a f : Byte), l.toNat ≤ 0xFFFFF ∧ f.toNat % 16 = 0
        ∧ exec (.encDesc b l a f) s
          = .next { s with y0 := some (d.extractLsb' 0 32), y1 := some (d.extractLsb' 32 32), ok := none })

/-! ### The GDT table -/

/-- R123: the six slot values and the 48-byte image after INIT_GDT, from any state; nothing else changes, and `Y0`, `Y1`,
`OK` hold no value. -/
def Obligations.InitGdtBuildsTheSixSlots : Prop :=
  ∀ s : State, ∃ t : State, exec (.initGdt .table) s = .next t
    ∧ t = { s with
        gdt := #v[0x0000000000000000#64, 0x00CF9A000000FFFF#64, 0x00CF92000000FFFF#64, 0x00CFFA000000FFFF#64,
          0x00CFF2000000FFFF#64, 0x0000890000000000#64],
        y0 := none, y1 := none, ok := none }
    ∧ ∀ o, o < 48 → gdtImageByte t.gdt o
        = ([0x00#8, 0x00#8, 0x00#8, 0x00#8, 0x00#8, 0x00#8, 0x00#8, 0x00#8,
            0xFF#8, 0xFF#8, 0x00#8, 0x00#8, 0x00#8, 0x9A#8, 0xCF#8, 0x00#8,
            0xFF#8, 0xFF#8, 0x00#8, 0x00#8, 0x00#8, 0x92#8, 0xCF#8, 0x00#8,
            0xFF#8, 0xFF#8, 0x00#8, 0x00#8, 0x00#8, 0xFA#8, 0xCF#8, 0x00#8,
            0xFF#8, 0xFF#8, 0x00#8, 0x00#8, 0x00#8, 0xF2#8, 0xCF#8, 0x00#8,
            0x00#8, 0x00#8, 0x00#8, 0x00#8, 0x00#8, 0x89#8, 0x00#8, 0x00#8] : List Byte)[o]?

/-- R124: the state after INIT_GDT does not depend on the table before it, and running it twice equals running it once. -/
def Obligations.InitGdtIsIdempotentFromAnyTable : Prop :=
  ∀ (s : State) (g : Vector Descriptor 6),
    exec (.initGdt .table) { s with gdt := g } = exec (.initGdt .table) s
    ∧ andThen (exec (.initGdt .table) s) (exec (.initGdt .table)) = exec (.initGdt .table) s

/-- The null reference is the early return of INIT_GDT and LOAD_GDT (R130): no state change, no primitive; the result
ports hold no value afterwards (R13, the reading of log 13). -/
def Obligations.NullTableReferenceReturnsEarly : Prop :=
  ∀ s : State, exec (.initGdt .null) s = .next { s with y0 := none, y1 := none, ok := none }
    ∧ exec (.loadGdt .null) s = .next { s with y0 := none, y1 := none, ok := none }

/-- LOAD_GDT (R126, R127, R221, R222, R256): when the table is acceptable, `GDTR` and the six segment registers are
loaded and nothing else changes, the table least of all (R126, 95_test_vectors.md 2.2); when it is not, the run ends in
`Fatal(BadGdt)`. The model's own in this: the descriptors the CPU caches are state (log 20) and have their accessed bit set
(30_encoding.md R71), while the bit's way into the table is an act of the CPU's own (log 15); and a selector which names no slot
is not acceptable (log 17). -/
def Obligations.LoadGdtLoadsOrIsFatal : Prop :=
  ∀ s : State,
    (TableAcceptable s.cfg { limit := 0x002F#16, base := s.cfg.gdtLinearBase } s.gdt →
      ∃ t, exec (.loadGdt .table) s = .next t
        ∧ t = { s with gdtr := { limit := 0x002F#16, base := s.cfg.gdtLinearBase }, segs := t.segs, y0 := none, y1 := none,
                       ok := none, ph := .idle, tlb := t.tlb, cpuTick := t.cpuTick }
        ∧ SegsReloaded s.cfg s.gdt t.segs ∧ OnlyCpuActs s t)
    ∧ (¬ TableAcceptable s.cfg { limit := 0x002F#16, base := s.cfg.gdtLinearBase } s.gdt →
      exec (.loadGdt .table) s = .fault .badGdt)

/-- LOAD_GDT after INIT_GDT never raises Fatal (R129), and leaves the registers and the table of PROG1 of 95_test_vectors.md,
with the selectors of R6. The cached descriptors are the model's state (log 20), with their accessed bit set (30_encoding.md
R71; log 15). -/
def Obligations.LoadGdtAfterInitGdtSucceeds : Prop :=
  ∀ s : State, s.cfg.kernelCs = 0x0008#16 → s.cfg.kernelDs = 0x0010#16 →
    ∃ t, andThen (exec (.initGdt .table) s) (exec (.loadGdt .table)) = .next t
      ∧ t.gdtr = { limit := 0x002F#16, base := s.cfg.gdtLinearBase }
      ∧ t.segs.cs = { selector := 0x0008#16, cached := 0x00CF9B000000FFFF#64 }
      ∧ t.segs.ds = { selector := 0x0010#16, cached := 0x00CF93000000FFFF#64 }
      ∧ t.segs.es = t.segs.ds ∧ t.segs.fs = t.segs.ds ∧ t.segs.gs = t.segs.ds ∧ t.segs.ss = t.segs.ds
      ∧ t.gdt = #v[0x0000000000000000#64, 0x00CF9A000000FFFF#64, 0x00CF92000000FFFF#64, 0x00CFFA000000FFFF#64,
          0x00CFF2000000FFFF#64, 0x0000890000000000#64]
      ∧ t.mem = s.mem ∧ t.bound = s.bound ∧ t.cr3 = s.cr3 ∧ t.ph = .idle ∧ t.ok = none

/-! ### The entry codec -/

/-- The results of the four codec operations (R140 to R143), as numbers: 20 bits of address above 12 bits of flags; only
the result ports change. The named fields of a PDE and of a PTE cover the entry, each at its place (R80, R83). -/
def Obligations.CodecPacksAndSplitsEntries : Prop :=
  ∀ (s : State) (pa e : Word) (fl : FlagsRecord),
    exec (.encPde pa fl) s
      = .next { s with y0 := some (BitVec.ofNat 32 (pa.toNat / 4096 * 4096 + fl.toNat)), y1 := none, ok := none }
    ∧ exec (.encPte pa fl) s
      = .next { s with y0 := some (BitVec.ofNat 32 (pa.toNat / 4096 * 4096 + fl.toNat)), y1 := none, ok := none }
    ∧ exec (.decPde e) s = .next { s with y0 := some (BitVec.ofNat 32 (e.toNat / 4096 * 4096)),
                                          y1 := some (BitVec.ofNat 32 (e.toNat % 4096)), ok := none }
    ∧ exec (.decPte e) s = .next { s with y0 := some (BitVec.ofNat 32 (e.toNat / 4096 * 4096)),
                                          y1 := some (BitVec.ofNat 32 (e.toNat % 4096)), ok := none }
    ∧ e = entryBase e ++ pdeAvl e ++ BitVec.ofBool (pdePs e) ++ BitVec.ofBool (pdeIgn6 e) ++ BitVec.ofBool (entryA e)
        ++ BitVec.ofBool (entryPcd e) ++ BitVec.ofBool (entryPwt e) ++ BitVec.ofBool (entryUs e) ++ BitVec.ofBool (entryRw e)
        ++ BitVec.ofBool (entryP e)
    ∧ e = entryBase e ++ pteAvl e ++ BitVec.ofBool (pteG e) ++ BitVec.ofBool (ptePat e) ++ BitVec.ofBool (pteD e)
        ++ BitVec.ofBool (entryA e) ++ BitVec.ofBool (entryPcd e) ++ BitVec.ofBool (entryPwt e) ++ BitVec.ofBool (entryUs e)
        ++ BitVec.ofBool (entryRw e) ++ BitVec.ofBool (entryP e)

/-- R144: the codec laws. Items 1 to 3 for both kinds of entry, and item 4 bit by bit for every field of the word. -/
def Obligations.CodecLaws : Prop :=
  (∀ e : Word, packPde (frameAddress e) (entryFlags e) = e ∧ packPte (frameAddress e) (entryFlags e) = e)
  ∧ (∀ (pa : Word) (fl : FlagsRecord), frameAddress (packPde pa fl) = pa &&& 0xFFFFF000#32 ∧ entryFlags (packPde pa fl) = fl
      ∧ frameAddress (packPte pa fl) = pa &&& 0xFFFFF000#32 ∧ entryFlags (packPte pa fl) = fl)
  ∧ (∀ (pa : Word) (fl : FlagsRecord), packPde pa fl = packPde (pa &&& 0xFFFFF000#32) fl
      ∧ packPte pa fl = packPte (pa &&& 0xFFFFF000#32) fl)
  ∧ (∀ (e v : Word) (lo width i : Nat), lo + width ≤ 32 → i < 32 →
      (setField e lo width v).getLsbD i = if lo ≤ i ∧ i < lo + width then v.getLsbD (i - lo) else e.getLsbD i)

/-! ### The address translator -/

/-- The results of the six translator operations (R160, R161, R166 to R169), as numbers; only the result ports change. -/
def Obligations.TranslatorComputesItsResults : Prop :=
  ∀ (s : State) (v : Word),
    exec (.v2p v) s = .next { s with y0 := some (BitVec.ofNat 32 (if s.cfg.kernelVirtualBase.toNat ≤ v.toNat
        then v.toNat - s.cfg.kernelVirtualBase.toNat else v.toNat)), y1 := none, ok := none }
    ∧ exec (.p2v v) s = .next { s with y0 := some (BitVec.ofNat 32 ((v.toNat + s.cfg.kernelVirtualBase.toNat) % 2 ^ 32)),
                                       y1 := none, ok := none }
    ∧ exec (.dirIdx v) s = .next { s with y0 := some (BitVec.ofNat 32 (v.toNat / 2 ^ 22)), y1 := none, ok := none }
    ∧ exec (.tblIdx v) s = .next { s with y0 := some (BitVec.ofNat 32 (v.toNat / 2 ^ 12 % 1024)), y1 := none, ok := none }
    ∧ exec (.pgOff v) s = .next { s with y0 := some (BitVec.ofNat 32 (v.toNat % 4096)), y1 := none, ok := none }
    ∧ exec (.frameAddr v) s = .next { s with y0 := some (BitVec.ofNat 32 (v.toNat / 4096 * 4096)), y1 := none, ok := none }

/-- R162: exactly when the round trips hold, and what the first one gives when it does not. -/
def Obligations.AddressRoundTripsHoldExactlyThere : Prop :=
  ∀ base : Word, base ≠ 0#32 →
    (∀ p : Word, (virtToPhys base (physToVirt base p) = p ↔ p.toNat < 2 ^ 32 - base.toNat)
      ∧ (2 ^ 32 - base.toNat ≤ p.toNat → (virtToPhys base (physToVirt base p)).toNat = p.toNat + base.toNat - 2 ^ 32))
    ∧ ∀ v : Word, (physToVirt base (virtToPhys base v) = v ↔ base.toNat ≤ v.toNat)

/-- R163: V2P and P2V keep the page offset, and a page-aligned input gives a page-aligned output. -/
def Obligations.TranslationKeepsThePageOffset : Prop :=
  ∀ (s t : State) (v y : Word), s.cfg.wf = true →
    (exec (.v2p v) s = .next t ∨ exec (.p2v v) s = .next t) → t.y0 = some y →
    pageOffset y = pageOffset v ∧ (v.toNat % 4096 = 0 → y.toNat % 4096 = 0)

/-- R170: the three fields partition a virtual address, and a frame address and a page offset compose without overlap. -/
def Obligations.AddressFieldsPartitionTheWord : Prop :=
  ∀ v e : Word, (dirIndex v <<< 22) ||| (tblIndex v <<< 12) ||| pageOffset v = v
    ∧ (dirIndex v <<< 22) &&& (tblIndex v <<< 12) = 0#32 ∧ (dirIndex v <<< 22) &&& pageOffset v = 0#32
    ∧ (tblIndex v <<< 12) &&& pageOffset v = 0#32
    ∧ frameAddress e &&& pageOffset v = 0#32 ∧ frameAddress e ||| pageOffset v = frameAddress e + pageOffset v

/-- R171: alignment downward subtracts the page offset and keeps both indices, and MAP_PAGE applies it to both its
addresses. -/
def Obligations.PageAlignmentAndItsUse : Prop :=
  (∀ a : Word, alignPage a = a &&& 0xFFFFF000#32 ∧ alignPage a = a - pageOffset a ∧ dirIndex (alignPage a) = dirIndex a
    ∧ tblIndex (alignPage a) = tblIndex a ∧ pageOffset (alignPage a) = 0#32)
  ∧ ∀ (s : State) (virt phys : Word) (pf tf : FlagsRecord),
    exec (.mapPage virt phys pf tf) s = exec (.mapPage (alignPage virt) (alignPage phys) pf tf) s

/-! ### The paging manager -/

/-- INIT_RT binds the manager to the boot-provided directory and changes nothing else, and a second call changes nothing
(R184, R185). -/
def Obligations.InitRtBindsTheBootDirectory : Prop :=
  ∀ s : State, ∃ t, exec .initRt s = .next t
    ∧ t = { s with bound := true, curDir := BitVec.ofNat 20 (s.cfg.bootPageDirectory.toNat / 4096), y0 := none, y1 := none,
                   ok := none }
    ∧ exec .initRt t = .next t

/-- F_UNBOUND (R251, R252, R253): an unbound manager answers `OK = 0` whatever memory holds and even where no memory is
backed, and nothing else changes. -/
def Obligations.UnboundManagerFailsAndTouchesNothing : Prop :=
  ∀ (s : State) (virt phys : Word) (pf tf : FlagsRecord), s.bound = false →
    ∀ i ∈ [Instr.mapPage virt phys pf tf, .unmapPage virt, .getPhys virt, .isMapped virt],
      ∃ t, exec i s = .next t ∧ OnlyAnswers s t none (some false)

/-- F_NO_PDE (R189, R251, R253): with the PDE of `virt` not present every manager operation answers `OK = 0` and changes
nothing else; MAP_PAGE allocates no page table. -/
def Obligations.AbsentPdeFailsAndTouchesNothing : Prop :=
  ∀ (s : State) (virt phys pde : Word) (pf tf : FlagsRecord), s.bound = true → isBacked s.cfg (pdeAddr s virt) = true →
    wordAt s.mem (pdeAddr s virt) = some pde → pde.getLsbD 0 = false →
    ∀ i ∈ [Instr.mapPage virt phys pf tf, .unmapPage virt, .getPhys virt, .isMapped virt],
      ∃ t, exec i s = .next t ∧ OnlyAnswers s t none (some false)

/-- F_NO_PTE (R195, R200, R251, R253): with the PDE present and the PTE not, UNMAP_PAGE, GET_PHYS and IS_MAPPED answer
`OK = 0` and change nothing else. -/
def Obligations.AbsentPteFailsAndTouchesNothing : Prop :=
  ∀ (s : State) (virt pde pte : Word), s.bound = true → isBacked s.cfg (pdeAddr s virt) = true →
    wordAt s.mem (pdeAddr s virt) = some pde → pde.getLsbD 0 = true → isBacked s.cfg (pteAddr pde virt) = true →
    wordAt s.mem (pteAddr pde virt) = some pte → pte.getLsbD 0 = false →
    ∀ i ∈ [Instr.unmapPage virt, .getPhys virt, .isMapped virt], ∃ t, exec i s = .next t ∧ OnlyAnswers s t none (some false)

/-- Where an entry on the walk is not backed the operation of a bound manager is refused, and where it is read and holds a
byte nothing has written it is a fault (R44; a departure of R42's page fault, log 22 and log 3): so for the directory entry,
and, that entry being present, for the table entry, which MAP_PAGE writes without reading it. -/
def Obligations.UnreachableDirectoryStops : Prop :=
  ∀ (s : State) (virt phys : Word) (pf tf : FlagsRecord), s.bound = true →
    (∀ i ∈ [Instr.mapPage virt phys pf tf, .unmapPage virt, .getPhys virt, .isMapped virt],
      (isBacked s.cfg (pdeAddr s virt) = false → exec i s = .refused .unbacked)
      ∧ (isBacked s.cfg (pdeAddr s virt) = true → wordAt s.mem (pdeAddr s virt) = none → exec i s = .fault .unwrittenMemory)
      ∧ ∀ pde, isBacked s.cfg (pdeAddr s virt) = true → wordAt s.mem (pdeAddr s virt) = some pde → pde.getLsbD 0 = true →
        isBacked s.cfg (pteAddr pde virt) = false → exec i s = .refused .unbacked)
    ∧ ∀ i ∈ [Instr.unmapPage virt, .getPhys virt, .isMapped virt], ∀ pde, isBacked s.cfg (pdeAddr s virt) = true →
        wordAt s.mem (pdeAddr s virt) = some pde → pde.getLsbD 0 = true → isBacked s.cfg (pteAddr pde virt) = true →
        wordAt s.mem (pteAddr pde virt) = none → exec i s = .fault .unwrittenMemory

/-- MAP_PAGE on a present PDE (R188, R190, R191): the PDE's masked flags and the whole PTE are written, in that order,
`OK = 1`, the invalidation record is spent, and nothing else changes; the old PTE is not read. The TLB is what the CPU's own
turns, one after each phase (R23), and between the last two the removal of the one page's entry (R223) make of it: that the
primitive removes no more, which R223 would let a CPU do, and where the turns fall are the model's (log 6). So the page's own
entry is gone or the one a walk now gives (R206), and every other page's entry is as before (stale, perhaps: R207), or gone, or
one the CPU filled from the tables before the writes, between them or after them. -/
def Obligations.MapPageWritesThePdeAndThePte : Prop :=
  ∀ (s : State) (virt phys pde : Word) (pf tf : FlagsRecord) (m1 m2 : Memory), s.bound = true →
    isBacked s.cfg (pdeAddr s virt) = true → wordAt s.mem (pdeAddr s virt) = some pde → pde.getLsbD 0 = true →
    isBacked s.cfg (pteAddr pde virt) = true →
    m1 = putWord s.mem (pdeAddr s virt)
      ((pde &&& ~~~ s.cfg.pdeFlagMask.setWidth 32) ||| (pf &&& s.cfg.pdeFlagMask).setWidth 32) →
    m2 = putWord m1 (pteAddr pde virt) ((phys &&& 0xFFFFF000#32) ||| tf.setWidth 32) →
    ∃ t, exec (.mapPage virt phys pf tf) s = .next t
      ∧ t = { s with mem := m2, y0 := none, y1 := none, ok := some true, ph := .idle, invPending := false,
                     invAddr := virt &&& 0xFFFFF000#32, tlb := t.tlb, cpuTick := s.cpuTick + 5 }
      ∧ t.tlb = tlbActs { s with mem := m2 } (Store.del (tlbActs { s with mem := m2 } (tlbActs { s with mem := m1 }
          (tlbActs s (tlbActs s s.tlb (Config.cpuActs s.cpuTick)) (Config.cpuActs (s.cpuTick + 1)))
          (Config.cpuActs (s.cpuTick + 2))) (Config.cpuActs (s.cpuTick + 3))) (virt.toNat / 4096))
          (Config.cpuActs (s.cpuTick + 4))
      ∧ (Store.get t.tlb (virt.toNat / 4096) = none ∨ Store.get t.tlb (virt.toNat / 4096) = cpuFillEntry t (vpnOf virt))
      ∧ ∀ n : PageNumber, n.toNat ≠ virt.toNat / 4096 → EntryKeptDroppedOrFilled s t [s.mem, m1, m2] n

/-- Entries lie in memory little-endian (R40, R45): after a successful MAP_PAGE byte `k` of the PTE in memory is bits
`8k+7:8k` of the entry of R191. -/
def Obligations.MappedEntryLiesLittleEndian : Prop :=
  ∀ (s t : State) (virt phys pde : Word) (pf tf : FlagsRecord) (k : Nat), exec (.mapPage virt phys pf tf) s = .next t →
    t.ok = some true → wordAt s.mem (pdeAddr s virt) = some pde → k < 4 →
    Store.get t.mem ((pteAddr pde virt).toNat + k)
      = some (BitVec.ofNat 8 ((phys.toNat / 4096 * 4096 + tf.toNat) / 2 ^ (8 * k)))

/-- UNMAP_PAGE on a mapped page (R195, R196): all 32 bits of the PTE become 0, the PDE and everything else stay. The TLB is
what the CPU's own turns, one after each phase (R23), and between the last two the removal of the one page's entry (R223) make
of it: that the primitive removes no more, which R223 would let a CPU do, and where the turns fall are the model's (log 6). So
the page's own entry is gone or the one a walk now gives (R206), and every other page's entry is as before, or gone, or one the
CPU filled from the tables before the write or after it. -/
def Obligations.UnmapPageZeroesThePte : Prop :=
  ∀ (s : State) (virt pde pte : Word) (m1 : Memory), s.bound = true → isBacked s.cfg (pdeAddr s virt) = true →
    wordAt s.mem (pdeAddr s virt) = some pde → pde.getLsbD 0 = true → isBacked s.cfg (pteAddr pde virt) = true →
    wordAt s.mem (pteAddr pde virt) = some pte → pte.getLsbD 0 = true → m1 = putWord s.mem (pteAddr pde virt) 0#32 →
    ∃ t, exec (.unmapPage virt) s = .next t
      ∧ t = { s with mem := m1, y0 := none, y1 := none, ok := some true, ph := .idle, invPending := false, invAddr := virt,
                     tlb := t.tlb, cpuTick := s.cpuTick + 5 }
      ∧ t.tlb = tlbActs { s with mem := m1 } (Store.del (tlbActs { s with mem := m1 }
          (tlbActs s (tlbActs s (tlbActs s s.tlb (Config.cpuActs s.cpuTick)) (Config.cpuActs (s.cpuTick + 1)))
          (Config.cpuActs (s.cpuTick + 2))) (Config.cpuActs (s.cpuTick + 3))) (virt.toNat / 4096))
          (Config.cpuActs (s.cpuTick + 4))
      ∧ (Store.get t.tlb (virt.toNat / 4096) = none ∨ Store.get t.tlb (virt.toNat / 4096) = cpuFillEntry t (vpnOf virt))
      ∧ ∀ n : PageNumber, n.toNat ≠ virt.toNat / 4096 → EntryKeptDroppedOrFilled s t [s.mem, m1] n

/-- GET_PHYS and IS_MAPPED on a mapped page (R200, R201, R203): frame plus offset in `Y0` for the one, `OK` alone for the
other; nothing else changes. -/
def Obligations.QueriesAnswerOnAMappedPage : Prop :=
  ∀ (s : State) (virt pde pte : Word), s.bound = true → isBacked s.cfg (pdeAddr s virt) = true →
    wordAt s.mem (pdeAddr s virt) = some pde → pde.getLsbD 0 = true → isBacked s.cfg (pteAddr pde virt) = true →
    wordAt s.mem (pteAddr pde virt) = some pte → pte.getLsbD 0 = true →
    (∃ t, exec (.getPhys virt) s = .next t
      ∧ OnlyAnswers s t (some (BitVec.ofNat 32 (pte.toNat / 4096 * 4096 + virt.toNat % 4096))) (some true))
    ∧ ∃ t, exec (.isMapped virt) s = .next t ∧ OnlyAnswers s t none (some true)

/-- The phase machine of R182 and the walk of R181 agree: GET_PHYS of a bound manager is R200's case distinction on
`walk(virt)`, stops included. -/
def Obligations.GetPhysIsTheWalk : Prop :=
  ∀ (s : State) (virt : Word), s.bound = true →
    match walk s virt with
    | .next .noPde => ∃ t, exec (.getPhys virt) s = .next t ∧ OnlyAnswers s t none (some false)
    | .next (.noPte _) => ∃ t, exec (.getPhys virt) s = .next t ∧ OnlyAnswers s t none (some false)
    | .next (.mapped _ pte) =>
      ∃ t, exec (.getPhys virt) s = .next t ∧ OnlyAnswers s t (some (frameAddress pte ||| pageOffset virt)) (some true)
    | .fault e => exec (.getPhys virt) s = .fault e
    | .refused e => exec (.getPhys virt) s = .refused e

/-- IS_MAPPED is GET_PHYS with the address discarded (R96, R203), in every state, stops included. -/
def Obligations.IsMappedIsGetPhysWithoutTheAddress : Prop :=
  ∀ (s : State) (virt : Word),
    exec (.isMapped virt) s = andThen (exec (.getPhys virt) s) fun t => .next { t with y0 := none }

/-- R208 items 2 and 4: after a successful MAP_PAGE with both present flags, GET_PHYS finds the frame at every offset of
the page and IS_MAPPED answers 1, provided the PTE written is not the PDE itself (R208 item 7). R208's premise that no PDE
involved has PS = 1 is not needed here: the manager never tests PS (R186; the model's reading, log 9). -/
def Obligations.MapThenQueryFindsTheFrame : Prop :=
  ∀ (s t : State) (virt phys o : Word) (pf tf : FlagsRecord), exec (.mapPage virt phys pf tf) s = .next t → t.ok = some true →
    pf.getLsbD 0 = true → tf.getLsbD 0 = true → o.toNat < 4096 →
    (∀ pde, wordAt s.mem (pdeAddr s virt) = some pde → pteAddr pde virt ≠ pdeAddr s virt) →
    (∃ u, exec (.getPhys ((virt &&& 0xFFFFF000#32) ||| o)) t = .next u ∧ u.ok = some true
      ∧ u.y0 = some ((phys &&& 0xFFFFF000#32) ||| o))
    ∧ ∃ u, exec (.isMapped ((virt &&& 0xFFFFF000#32) ||| o)) t = .next u ∧ u.ok = some true

/-- R208 items 3 and 4: a page just mapped unmaps once, the second UNMAP_PAGE fails, and IS_MAPPED then answers 0. R208's
premise that no PDE involved has PS = 1 is not needed here: the manager never tests PS (R186; the model's reading, log 9). -/
def Obligations.MapThenUnmapWorksOnce : Prop :=
  ∀ (s t : State) (virt phys : Word) (pf tf : FlagsRecord), exec (.mapPage virt phys pf tf) s = .next t → t.ok = some true →
    pf.getLsbD 0 = true → tf.getLsbD 0 = true →
    (∀ pde, wordAt s.mem (pdeAddr s virt) = some pde → pteAddr pde virt ≠ pdeAddr s virt) →
    ∃ u, exec (.unmapPage virt) t = .next u ∧ u.ok = some true
      ∧ (∃ w, exec (.unmapPage virt) u = .next w ∧ w.ok = some false ∧ w.mem = u.mem)
      ∧ ∃ w, exec (.isMapped virt) u = .next w ∧ w.ok = some false

/-- R300, R191: MAP_PAGE with `pte_flags.P = 0` on a present PDE answers `OK = 1` and leaves the page unmapped: GET_PHYS and
IS_MAPPED then answer `OK = 0`, whatever `pde_flags` holds. The PTE is not the PDE itself. -/
def Obligations.MapWithAbsentPteFlagLeavesUnmapped : Prop :=
  ∀ (s : State) (virt phys pde : Word) (pf tf : FlagsRecord), s.bound = true → isBacked s.cfg (pdeAddr s virt) = true →
    wordAt s.mem (pdeAddr s virt) = some pde → pde.getLsbD 0 = true → isBacked s.cfg (pteAddr pde virt) = true →
    pteAddr pde virt ≠ pdeAddr s virt → tf.getLsbD 0 = false →
    ∃ t, exec (.mapPage virt phys pf tf) s = .next t ∧ t.ok = some true
      ∧ (∃ u, exec (.getPhys virt) t = .next u ∧ u.ok = some false ∧ u.y0 = none)
      ∧ ∃ u, exec (.isMapped virt) t = .next u ∧ u.ok = some false

/-- R22, R47: two PDEs may hold the same frame address, and a mapping made through one is seen through the other. -/
def Obligations.SharedTableIsSeenThroughBothPdes : Prop :=
  ∀ (s t : State) (v w phys pv pw : Word) (pf tf : FlagsRecord), exec (.mapPage v phys pf tf) s = .next t → t.ok = some true →
    wordAt s.mem (pdeAddr s v) = some pv → wordAt s.mem (pdeAddr s w) = some pw → pw.getLsbD 0 = true →
    isBacked s.cfg (pdeAddr s w) = true → frameAddress pw = frameAddress pv → tblIndex w = tblIndex v →
    pdeAddr s w ≠ pdeAddr s v → pteAddr pv v ≠ pdeAddr s w → tf.getLsbD 0 = true →
    ∃ u, exec (.getPhys w) t = .next u ∧ u.ok = some true ∧ u.y0 = some ((phys &&& 0xFFFFF000#32) ||| pageOffset w)

/-! ### What every instruction leaves alone -/

/-- The memory frame of every instruction (R208 item 6, R227): MAP_PAGE changes no byte outside the PDE of `virt` and the
PTE that PDE leads to, UNMAP_PAGE none outside that PTE, and no other instruction changes memory. -/
def Obligations.MemoryFrameOfEveryInstruction : Prop :=
  ∀ (s t : State) (i : Instr), exec i s = .next t →
    match i with
    | .mapPage virt _ _ _ => ∀ a, OutsideWord (pdeAddr s virt) a →
        (∀ pde, wordAt s.mem (pdeAddr s virt) = some pde → OutsideWord (pteAddr pde virt) a) →
        Store.get t.mem a = Store.get s.mem a
    | .unmapPage virt => ∀ a, (∀ pde, wordAt s.mem (pdeAddr s virt) = some pde → OutsideWord (pteAddr pde virt) a) →
        Store.get t.mem a = Store.get s.mem a
    | _ => t.mem = s.mem

/-- The register frame of every instruction (R12, R16, R18, R21, R185): the parameters, the waiting inputs, the operand
ports and CR3 change under no instruction; the binding only under INIT_RT; the GDT slots only under INIT_GDT; `GDTR` only
under LOAD_GDT and P_LGDT; the segment registers only under LOAD_GDT and P_RELOAD_SEGS; a primitive's returned value only under
P_RD_CR3. The model's own in this: that the accessed bit of a loaded descriptor (30_encoding.md R71) gets into the table by an
act of the CPU's own and not under the instruction (log 15), that P_WR_CR3 of another value is refused (log 11), `ret` (log 12) and `inputs` (log 4). -/
def Obligations.RegisterFrameOfEveryInstruction : Prop :=
  ∀ (s t : State) (i : Instr), exec i s = .next t →
    t.cfg = s.cfg ∧ t.inputs = s.inputs ∧ t.op = s.op ∧ t.a0 = s.a0 ∧ t.a1 = s.a1 ∧ t.a2 = s.a2 ∧ t.a3 = s.a3 ∧ t.cr3 = s.cr3
    ∧ (i ≠ .initRt → t.bound = s.bound ∧ t.curDir = s.curDir)
    ∧ (i ≠ .initGdt .table → t.gdt = s.gdt)
    ∧ (i ≠ .loadGdt .table → (∀ l b, i ≠ .pLgdt l b) → t.gdtr = s.gdtr)
    ∧ (i ≠ .loadGdt .table → i ≠ .pReloadSegs → t.segs = s.segs)
    ∧ (i ≠ .pRdCr3 → t.ret = s.ret)
    ∧ ((∀ v p f g, i ≠ .mapPage v p f g) → (∀ v, i ≠ .unmapPage v) → t.invPending = s.invPending ∧ t.invAddr = s.invAddr)

/-- Which result ports hold a value after each operation (R13, R15, R90): `OK` after exactly the four fallible manager
operations; `Y1` after ENC_DESC and the two decoders; `Y0` after the pure operations, and after GET_PHYS exactly when
`OK = 1`. That a primitive leaves the three ports as they were is the model's (log 12), and that the early return of INIT_GDT
and LOAD_GDT leaves them without a value is its reading (log 13). -/
def Obligations.ResultPortsHoldExactlyTheirResults : Prop :=
  ∀ (s t : State) (i : Instr), exec i s = .next t →
    match i with
    | .encDesc .. => t.y0.isSome = true ∧ t.y1.isSome = true ∧ t.ok = none
    | .decPde _ => t.y0.isSome = true ∧ t.y1.isSome = true ∧ t.ok = none
    | .decPte _ => t.y0.isSome = true ∧ t.y1.isSome = true ∧ t.ok = none
    | .initGdt _ => t.y0 = none ∧ t.y1 = none ∧ t.ok = none
    | .loadGdt _ => t.y0 = none ∧ t.y1 = none ∧ t.ok = none
    | .initRt => t.y0 = none ∧ t.y1 = none ∧ t.ok = none
    | .mapPage .. => t.y0 = none ∧ t.y1 = none ∧ t.ok.isSome = true
    | .unmapPage _ => t.y0 = none ∧ t.y1 = none ∧ t.ok.isSome = true
    | .isMapped _ => t.y0 = none ∧ t.y1 = none ∧ t.ok.isSome = true
    | .getPhys _ => (t.ok = some true ∧ t.y0.isSome = true ∨ t.ok = some false ∧ t.y0 = none) ∧ t.y1 = none
    | .encPde .. => t.y0.isSome = true ∧ t.y1 = none ∧ t.ok = none
    | .encPte .. => t.y0.isSome = true ∧ t.y1 = none ∧ t.ok = none
    | .v2p _ => t.y0.isSome = true ∧ t.y1 = none ∧ t.ok = none
    | .p2v _ => t.y0.isSome = true ∧ t.y1 = none ∧ t.ok = none
    | .dirIdx _ => t.y0.isSome = true ∧ t.y1 = none ∧ t.ok = none
    | .tblIdx _ => t.y0.isSome = true ∧ t.y1 = none ∧ t.ok = none
    | .pgOff _ => t.y0.isSome = true ∧ t.y1 = none ∧ t.ok = none
    | .frameAddr _ => t.y0.isSome = true ∧ t.y1 = none ∧ t.ok = none
    | .pLgdt .. => t.y0 = s.y0 ∧ t.y1 = s.y1 ∧ t.ok = s.ok
    | .pReloadSegs => t.y0 = s.y0 ∧ t.y1 = s.y1 ∧ t.ok = s.ok
    | .pInvlpg _ => t.y0 = s.y0 ∧ t.y1 = s.y1 ∧ t.ok = s.ok
    | .pFlushTlb => t.y0 = s.y0 ∧ t.y1 = s.y1 ∧ t.ok = s.ok
    | .pRdCr3 => t.y0 = s.y0 ∧ t.y1 = s.y1 ∧ t.ok = s.ok
    | .pWrCr3 _ => t.y0 = s.y0 ∧ t.y1 = s.y1 ∧ t.ok = s.ok

/-- Every instruction issued in IDLE that completes leaves IDLE, with no invalidation pending (R17, R182, R209). -/
def Obligations.EveryInstructionEndsInIdle : Prop :=
  ∀ (s t : State) (i : Instr), exec i s = .next t → s.ph = .idle → s.invPending = false → t.ph = .idle ∧ t.invPending = false

/-! ### The CPU primitives and the TLB -/

/-- P_LGDT loads `GDTR` and nothing else: the segment registers and their cached descriptors stay (R220). -/
def Obligations.LgdtLoadsOnlyTheTableRegister : Prop :=
  ∀ (s : State) (limit : Half) (base : Word),
    exec (.pLgdt limit base) s = .next { s with gdtr := { limit := limit, base := base } }

/-- P_RELOAD_SEGS (R221, R222): the six segment registers when the table is acceptable, `Fatal(BadGdt)` when not; nothing
else changes. The model's own in this: the descriptors the CPU caches are state (log 20) and have their accessed bit set
(30_encoding.md R71), while the bit's way into the table is an act of the CPU's own (log 15); and a selector which names no slot
is not acceptable, whatever GDTR's limit (log 17). -/
def Obligations.ReloadSegsLoadsOrIsFatal : Prop :=
  ∀ s : State,
    (TableAcceptable s.cfg s.gdtr s.gdt →
      ∃ t, exec .pReloadSegs s = .next t ∧ t = { s with segs := t.segs } ∧ SegsReloaded s.cfg s.gdt t.segs)
    ∧ (¬ TableAcceptable s.cfg s.gdtr s.gdt → exec .pReloadSegs s = .fault .badGdt)

/-- P_INVLPG removes the entry of the one page, whatever its low address bits, and no other entry (R223's pseudocode). R223
lets a CPU remove more; in the model any further drop is the CPU's own, in one of its turns, and not the primitive's (log 6). -/
def Obligations.InvlpgRemovesOneTranslation : Prop :=
  ∀ (s : State) (virt : Word), ∃ t, exec (.pInvlpg virt) s = .next t
    ∧ t = { s with tlb := t.tlb } ∧ Store.get t.tlb (virt.toNat / 4096) = none
    ∧ ∀ n, n ≠ virt.toNat / 4096 → Store.get t.tlb n = Store.get s.tlb n

/-- P_FLUSH_TLB removes every entry that is not global, keeps as it is or removes each global entry, and adds none
(R224). -/
def Obligations.FlushRemovesEveryNonGlobalTranslation : Prop :=
  ∀ s : State, Tlb.wf s.tlb = true → ∃ t, exec .pFlushTlb s = .next t
    ∧ t = { s with tlb := t.tlb, cpuTick := t.cpuTick }
    ∧ (∀ n e, Store.get s.tlb n = some e → e.flags.getLsbD 8 = false → Store.get t.tlb n = none)
    ∧ (∀ n e, Store.get s.tlb n = some e → e.flags.getLsbD 8 = true →
        Store.get t.tlb n = some e ∨ Store.get t.tlb n = none)
    ∧ ∀ n, Store.get s.tlb n = none → Store.get t.tlb n = none

/-- P_RD_CR3 returns CR3 with no side effect; P_WR_CR3 of the current value is a flush (R96, R225, R226), and of any other
value is refused (R226). Where the value read goes (`ret`) is the model's (log 12). -/
def Obligations.Cr3PrimitivesReadAndFlush : Prop :=
  ∀ s : State, exec .pRdCr3 s = .next { s with ret := s.cr3 }
    ∧ exec (.pWrCr3 s.cr3) s = exec .pFlushTlb s
    ∧ (∃ t, exec (.pWrCr3 s.cr3) s = .next t ∧ t = { s with tlb := t.tlb, cpuTick := t.cpuTick })
    ∧ ∀ v, v ≠ s.cr3 → exec (.pWrCr3 v) s = .refused .cr3Switch

/-- The invalidation guarantee (R206): when MAP_PAGE or UNMAP_PAGE completes with `OK = 1`, whatever the CPU filled or
dropped meanwhile, the TLB holds no entry for the page, or the one that a walk of the tables now in memory gives; and so it
does after phase INVAL from any state with an invalidation pending, whatever the CPU did to the tables and to the TLB before
(an operation taken phase by phase, log 5). What a walk gives is `cpuFillEntry`, which fills only from memory that holds the
entries (log 7); TranslationAgreesWithGetPhys says what it is. -/
def Obligations.NoStaleTranslationAfterMapOrUnmap : Prop :=
  (∀ (s t : State) (virt phys : Word) (pf tf : FlagsRecord),
    (exec (.mapPage virt phys pf tf) s = .next t ∨ exec (.unmapPage virt) s = .next t) → t.ok = some true →
    Store.get t.tlb (virt.toNat / 4096) = none ∨ Store.get t.tlb (virt.toNat / 4096) = cpuFillEntry t (vpnOf virt))
  ∧ ∀ s : State, s.ph = .inval → s.invPending = true → (s.inputs = [] ∨ ∃ rest, s.inputs = .nextPhase :: rest) →
    ∃ t, step s = .next t ∧ t.ok = some true ∧ t.ph = .idle ∧ t.invPending = false
      ∧ (Store.get t.tlb (s.invAddr.toNat / 4096) = none
        ∨ Store.get t.tlb (s.invAddr.toNat / 4096) = cpuFillEntry t (vpnOf s.invAddr))

/-- With CR3 and `cur_dir` the same directory and PS = 0 in the page's PDE, the CPU's walk is the manager's (R228, R23): the
CPU can cache an entry exactly where `walk` finds the page mapped, and then with the PTE's frame and the PTE's `G`
(30_encoding.md R84; the other cached flags are free, log 6; where the walk stops there is nothing to cache, log 7); and with no
TLB entry for the page the CPU's translation and GET_PHYS agree. -/
def Obligations.TranslationAgreesWithGetPhys : Prop :=
  ∀ (s : State) (virt : Word), s.cr3.toNat / 4096 = s.curDir.toNat →
    (∀ pde, wordAt s.mem (pdeAddr s virt) = some pde → pde.getLsbD 7 = false) →
    (∀ pde pte, walk s virt = .next (.mapped pde pte) → ∃ fl : FlagsRecord, fl.getLsbD 8 = pte.getLsbD 8
      ∧ cpuFillEntry s (vpnOf virt) = some { frame := BitVec.ofNat 20 (pte.toNat / 4096), flags := fl })
    ∧ ((∀ pde pte, walk s virt ≠ .next (.mapped pde pte)) → cpuFillEntry s (vpnOf virt) = none)
    ∧ ∀ t, s.bound = true → Store.get s.tlb (virt.toNat / 4096) = none → exec (.getPhys virt) s = .next t →
      Sys2Proof.Machine.translate s virt = match t.y0 with
        | some pa => .next (.phys pa)
        | none => .next .pageFault

/-- The CPU's accessed and dirty updates (R53): each sets bit 5 or bit 6 of the one entry a walk from CR3 uses for the page,
where that entry is present and in memory, and changes nothing else, in any phase; a PTE's only where a present PDE leads to it
(R228). A CPU update of the PDE's accessed bit between MAP_PAGE's read and its write is lost (R51, R299), both in phase WR_PDE
and in a whole run from IDLE: under every PDE_FLAG_MASK the PDE written is computed from the PDE read before the update (R190).
So with the accessed bit of a descriptor (30_encoding.md R71): the CPU sets bit 40 of the one slot, where a segment register was
loaded from it, and changes nothing else, in any phase. That an update is an action placed between two phases is the model's
(log 16, log 15, log 5). -/
def Obligations.AccessedUpdateDuringMapIsLost : Prop :=
  (∀ (s : State) (n : PageNumber) (m : CpuMark) (rest : List Input) (dir : Word), s.inputs = .cpuMark n m :: rest →
    dir = pdeAddrIn (s.cr3 &&& 0xFFFFF000#32) (pageBase n) →
    ∃ t, step s = .next t ∧ OnlyCpuActs s t
      ∧ t = { s with inputs := rest, mem := t.mem, tlb := t.tlb, cpuTick := t.cpuTick }
      ∧ (t.mem = s.mem ∨ ∃ pa e, wordAt s.mem pa = some e ∧ e.getLsbD 0 = true
        ∧ t.mem = putWord s.mem pa (e ||| if m = .pteDirty then 0x40#32 else 0x20#32)
        ∧ isBacked s.cfg pa = true ∧ isBacked s.cfg dir = true
        ∧ if m = .pdeAccessed then pa = dir else ∃ pde, wordAt s.mem dir = some pde ∧ pde.getLsbD 0 = true
            ∧ (pde.getLsbD 7 && Config.fourMiBPages) = false ∧ pa = pteAddr pde (pageBase n))
      ∧ ∀ pde, isBacked s.cfg dir = true → wordAt s.mem dir = some pde → pde.getLsbD 0 = true →
        (m = .pdeAccessed → t.mem = putWord s.mem dir (pde ||| 0x20#32))
        ∧ (∀ pte, pde.getLsbD 7 = false → isBacked s.cfg (pteAddr pde (pageBase n)) = true →
          wordAt s.mem (pteAddr pde (pageBase n)) = some pte → pte.getLsbD 0 = true →
          (m = .pteAccessed → t.mem = putWord s.mem (pteAddr pde (pageBase n)) (pte ||| 0x20#32))
          ∧ (m = .pteDirty → t.mem = putWord s.mem (pteAddr pde (pageBase n)) (pte ||| 0x40#32))))
  ∧ (∀ (s : State) (m : MapArgs) (pde : Word), s.ph = .wrPde m pde → s.inputs = [.cpuMark (vpnOf m.virt) .pdeAccessed] →
    s.cr3.toNat / 4096 = s.curDir.toNat → isBacked s.cfg (pdeAddr s m.virt) = true →
    wordAt s.mem (pdeAddr s m.virt) = some pde → pde.getLsbD 0 = true →
    ∃ t u e e', step s = .next t ∧ wordAt t.mem (pdeAddr s m.virt) = some e ∧ e.getLsbD 5 = true
      ∧ step t = .next u ∧ wordAt u.mem (pdeAddr s m.virt) = some e'
      ∧ e' = (pde &&& ~~~ s.cfg.pdeFlagMask.setWidth 32) ||| (m.pdeFlags &&& s.cfg.pdeFlagMask).setWidth 32
      ∧ e'.getLsbD 5 = if s.cfg.pdeFlagMask.getLsbD 5 then m.pdeFlags.getLsbD 5 else pde.getLsbD 5)
  ∧ (∀ (s : State) (k : Fin 6) (rest : List Input), s.inputs = .cpuMarkDescriptor k :: rest →
    ∃ t, step s = .next t ∧ OnlyCpuActs s t
      ∧ t = { s with inputs := rest, gdt := t.gdt, tlb := t.tlb, cpuTick := t.cpuTick }
      ∧ (∀ (j : Nat) (h : j < 6), j ≠ k.val → t.gdt[j] = s.gdt[j])
      ∧ (LoadedFrom s k → t.gdt[k] = s.gdt[k] ||| 0x0000010000000000#64) ∧ (¬ LoadedFrom s k → t.gdt[k] = s.gdt[k]))
  ∧ ∀ (s : State) (pde : Word), s.ph = .idle → s.bound = true →
    s.inputs = [.issueStepwise 0x31#8, .nextPhase, .nextPhase, .cpuMark (vpnOf s.a0) .pdeAccessed, .nextPhase] →
    s.cr3.toNat / 4096 = s.curDir.toNat → isBacked s.cfg (pdeAddr s s.a0) = true →
    wordAt s.mem (pdeAddr s s.a0) = some pde → pde.getLsbD 0 = true →
    ∃ t u e e', Host.Core.run core 4 s = .next t ∧ wordAt t.mem (pdeAddr s s.a0) = some e ∧ e.getLsbD 5 = true
      ∧ Host.Core.run core 5 s = .next u ∧ wordAt u.mem (pdeAddr s s.a0) = some e'
      ∧ e' = (pde &&& ~~~ s.cfg.pdeFlagMask.setWidth 32) ||| (s.a2.setWidth 12 &&& s.cfg.pdeFlagMask).setWidth 32
      ∧ e'.getLsbD 5 = if s.cfg.pdeFlagMask.getLsbD 5 then s.a2.getLsbD 5 else pde.getLsbD 5

/-! ### The whole machine -/

/-- Every step keeps the invariant: memory and TLB in canonical form, the invalidation record pending exactly in INVAL
(R17), the phase sound (R182), the parameters within their constraints (R6). The canonical forms and the exact window of
the record are the model's reading (log 3, log 21). -/
def Obligations.EveryStepKeepsTheInvariant : Prop :=
  ∀ s t : State, s.Inv → step s = .next t → t.Inv

/-- Reset (R25, R280) leaves IDLE, an unbound manager, nothing pending, and no result port and no byte of memory with a
value; and it meets the invariant. (The registers to which R25 gives no value hold the model's zero, log 2, and are not in
this statement.) -/
def Obligations.ResetMeetsTheInvariantAndIsEmpty : Prop :=
  State.reset.Inv ∧ State.reset.ph = .idle ∧ State.reset.bound = false ∧ State.reset.invPending = false
    ∧ State.reset.y0 = none ∧ State.reset.y1 = none ∧ State.reset.ok = none
    ∧ ∀ a, Store.get State.reset.mem a = none

/-- An operation in progress runs out: with no outside action waiting, five steps from any state reach IDLE or stop
(R209, R310). -/
def Obligations.EveryOperationRunsOutInFiveSteps : Prop :=
  ∀ s t : State, s.inputs = [] → Host.Core.run core 5 s = .next t → t.ph = .idle

/-- A whole run on the request side (R283): from any idle state with the selectors of R6 and a table reference in `A0`, the
issues INIT_GDT, LOAD_GDT and INIT_RT, the host's write of an address to `A0`, and the issue of GET_PHYS of that address, a
mapped page, one step each (log 5), leave the GDT of PROG1 built and loaded, the manager bound and the answer in `Y0`. -/
def Obligations.BootOrderThenQueryAnswers : Prop :=
  ∀ (s : State) (virt pde pte : Word), s.ph = .idle → s.cfg.kernelCs = 0x0008#16 → s.cfg.kernelDs = 0x0010#16 →
    s.a0.getLsbD 0 = true →
    s.inputs = [.issue 0x02#8, .issue 0x03#8, .issue 0x30#8, .writePort .a0 virt, .issue 0x33#8] →
    isBacked s.cfg (pdeAddrIn (alignPage s.cfg.bootPageDirectory) virt) = true →
    wordAt s.mem (pdeAddrIn (alignPage s.cfg.bootPageDirectory) virt) = some pde → pde.getLsbD 0 = true →
    isBacked s.cfg (pteAddr pde virt) = true → wordAt s.mem (pteAddr pde virt) = some pte → pte.getLsbD 0 = true →
    ∃ t, Host.Core.run core 5 s = .next t ∧ t.gdtr = { limit := 0x002F#16, base := s.cfg.gdtLinearBase }
      ∧ t.gdt = #v[0x0000000000000000#64, 0x00CF9A000000FFFF#64, 0x00CF92000000FFFF#64, 0x00CFFA000000FFFF#64,
          0x00CFF2000000FFFF#64, 0x0000890000000000#64]
      ∧ t.segs.cs.selector = 0x0008#16 ∧ t.segs.ds.selector = 0x0010#16 ∧ t.segs.es = t.segs.ds ∧ t.segs.fs = t.segs.ds
      ∧ t.segs.gs = t.segs.ds ∧ t.segs.ss = t.segs.ds
      ∧ t.bound = true ∧ t.ok = some true ∧ t.y0 = some (frameAddress pte ||| pageOffset virt) ∧ t.mem = s.mem
      ∧ t.inputs = [] ∧ t.ph = .idle
end

