-- ==== Sys2Proof/Laws/Decode.lean ====
section
/-! SUPPORT. The opcode table as a table: the code of a row selects that row and no other code does (spec 30_encoding.md
R91 to R93). -/

namespace Sys2Proof

/-- The code of a row selects that row: no two rows overlap. -/
@[simp] theorem opcodeOf_codeOf (o : Opcode) : opcodeOf (codeOf o) = some o := by cases o <;> rfl

/-- A code that selects a row is that row's code. -/
theorem codeOf_of_opcodeOf {code : Byte} {o : Opcode} (h : opcodeOf code = some o) : codeOf o = code := by
  have := List.find?_some h
  simpa using this

/-- The code of an encoded instruction is its row's. -/
@[simp] theorem encode_op (i : Instr) : (encode i).op = codeOf (rowOf i) := by cases i <;> rfl

/-- The primitives are the rows whose codes the host cannot issue (R92). -/
theorem isPrimitive_eq (i : Instr) : i.isPrimitive = isPrimitiveCode (codeOf (rowOf i)) := by simp [Instr.isPrimitive]

/-- A port that fits in `n` bits is its low `n` bits. -/
theorem Word.setWidth_of_fits {w : Word} {n : Nat} (h : Word.fits w n = true) : (w.setWidth n).setWidth 32 = w := by
  apply BitVec.eq_of_toNat_eq
  have := w.isLt
  simp only [Word.fits, decide_eq_true_eq] at h
  rw [BitVec.toNat_setWidth, BitVec.toNat_setWidth, Nat.mod_eq_of_lt h, Nat.mod_eq_of_lt this]

/-- An instruction's operands read back from its encoded ports. -/
@[simp] theorem instrOf_encode (i : Instr) : instrOf (rowOf i) (encode i) = i := by
  cases i with
  | initGdt t => cases t <;> rfl
  | loadGdt t => cases t <;> rfl
  | _ => simp [instrOf, rowOf, encode, Command.of, byteOf, flagsOf, halfOf]

end Sys2Proof
end

