-- ==== Sys2Proof/Laws/Descriptor.lean ====
section
/-! SUPPORT. The descriptor encoder, said once (spec 40_descriptor_encoder.md R110 to R114): the clamp as a number and
every bit of a packed descriptor. -/

namespace Sys2Proof.Machine

open Sys2Proof

/-- The clamp of R111 as a number. -/
theorem clampLimit_eq (l : Word) : clampLimit l = BitVec.ofNat 20 (min l.toNat 0xFFFFF) := by
  apply BitVec.eq_of_toNat_eq
  have := l.isLt
  unfold clampLimit
  by_cases h : limitMax < l
  · have h' : 0xFFFFF < l.toNat := by simpa [limitMax, BitVec.lt_def] using h
    simp only [h, if_true]
    simp [Nat.min_eq_right (Nat.le_of_lt h')]
  · have h' : l.toNat ≤ 0xFFFFF := by simpa [limitMax, BitVec.lt_def] using h
    simp only [h, if_false]
    simp [Nat.min_eq_left h']

/-- Every bit of a packed descriptor (R73). -/
theorem getLsbD_packDescriptor (b l : Word) (a f : Byte) (i : Nat) : (packDescriptor b l a f).getLsbD i =
    if i < 16 then (clampLimit l).getLsbD i
    else if i < 40 then b.getLsbD (i - 16)
    else if i < 48 then a.getLsbD (i - 40)
    else if i < 52 then (clampLimit l).getLsbD (i - 32)
    else if i < 56 then f.getLsbD (i - 48)
    else if i < 64 then b.getLsbD (i - 32) else false := by
  by_cases h : i < 64
  · unfold packDescriptor
    simp only [BitVec.getLsbD_or, BitVec.getLsbD_shiftLeft, BitVec.getLsbD_setWidth, BitVec.getLsbD_extractLsb']
    generalize clampLimit l = c
    interval_cases i <;> simp
  · have h1 : ¬ i < 16 := by omega
    have h3 : ¬ i < 40 := by omega
    have h4 : ¬ i < 48 := by omega
    have h5 : ¬ i < 52 := by omega
    have h6 : ¬ i < 56 := by omega
    rw [BitVec.getLsbD_of_ge _ _ (by omega)]
    simp [h, h1, h3, h4, h5, h6]

@[simp] theorem descBase_packDescriptor (b l : Word) (a f : Byte) : descBase (packDescriptor b l a f) = b := by
  apply BitVec.eq_of_getLsbD_eq
  intro i hi
  simp only [descBase, BitVec.getLsbD_append, BitVec.getLsbD_extractLsb', getLsbD_packDescriptor]
  interval_cases i <;> simp

@[simp] theorem descLimit_packDescriptor (b l : Word) (a f : Byte) : descLimit (packDescriptor b l a f) = clampLimit l := by
  apply BitVec.eq_of_getLsbD_eq
  intro i hi
  simp only [descLimit, BitVec.getLsbD_append, BitVec.getLsbD_extractLsb', getLsbD_packDescriptor]
  interval_cases i <;> simp

@[simp] theorem descAccess_packDescriptor (b l : Word) (a f : Byte) : descAccess (packDescriptor b l a f) = a := by
  apply BitVec.eq_of_getLsbD_eq
  intro i hi
  simp only [descAccess, BitVec.getLsbD_extractLsb', getLsbD_packDescriptor]
  interval_cases i <;> simp

@[simp] theorem descFlags_packDescriptor (b l : Word) (a f : Byte) : descFlags (packDescriptor b l a f) = f &&& 0xF0#8 := by
  apply BitVec.eq_of_getLsbD_eq
  intro i hi
  simp only [descFlags, BitVec.getLsbD_append, BitVec.getLsbD_extractLsb', getLsbD_packDescriptor]
  interval_cases i <;> simp

end Sys2Proof.Machine
end

