-- ==== Sys2Proof/Laws/Formats.lean ====
section
/-! SUPPORT. The arithmetic and bit facts of the address translator and the entry codec, each said once: what a field
function is as a number, and which bits of a word it takes. -/

namespace Sys2Proof.Machine

open Sys2Proof

/-- Bit by bit, `0xFFFFF000` keeps bits 31:12. -/
theorem getLsbD_frameMask (i : Nat) : (0xFFFFF000#32 : Word).getLsbD i = (decide (12 ≤ i) && decide (i < 32)) := by
  by_cases h : i < 32
  · interval_cases i <;> decide
  · have : (0xFFFFF000#32 : Word).getLsbD i = false := BitVec.getLsbD_of_ge _ _ (by omega)
    simp [this, h]

theorem getLsbD_offsetMask (i : Nat) : (0xFFF#32 : Word).getLsbD i = decide (i < 12) := by
  by_cases h : i < 32
  · interval_cases i <;> decide
  · have : (0xFFF#32 : Word).getLsbD i = false := BitVec.getLsbD_of_ge _ _ (by omega)
    simp [this]; omega

theorem and_frameMask (a : Word) : a &&& 0xFFFFF000#32 = (a >>> 12) <<< 12 := by
  ext i hi
  have hm := getLsbD_frameMask i
  rw [BitVec.getLsbD_eq_getElem hi] at hm
  simp only [BitVec.getElem_and, hm, BitVec.getElem_shiftLeft, BitVec.getElem_ushiftRight]
  by_cases h : i < 12
  · have : ¬ 12 ≤ i := by omega
    simp [h, this]
  · have h12 : 12 ≤ i := by omega
    have : 12 + (i - 12) = i := by omega
    simp [h, h12, hi, this]

/-- `a & 0xFFFFF000` as a number. -/
theorem toNat_and_frameMask (a : Word) : (a &&& 0xFFFFF000#32).toNat = a.toNat / 4096 * 4096 := by
  have := a.isLt
  rw [and_frameMask, BitVec.toNat_shiftLeft, BitVec.toNat_ushiftRight, Nat.shiftLeft_eq, Nat.shiftRight_eq_div_pow]
  norm_num
  omega

theorem toNat_alignPage (a : Word) : (alignPage a).toNat = a.toNat / 4096 * 4096 := toNat_and_frameMask a

theorem toNat_frameAddress (e : Word) : (frameAddress e).toNat = e.toNat / 4096 * 4096 := toNat_and_frameMask e

theorem toNat_pageOffset (v : Word) : (pageOffset v).toNat = v.toNat % 4096 := by
  have : (0xFFF#32 : Word).toNat = 2 ^ 12 - 1 := by decide
  simp only [pageOffset, BitVec.toNat_and, this, Nat.and_two_pow_sub_one_eq_mod]

theorem toNat_dirIndex (v : Word) : (dirIndex v).toNat = v.toNat / 4194304 := by
  simp only [dirIndex, BitVec.toNat_ushiftRight, Nat.shiftRight_eq_div_pow]

theorem toNat_tblIndex (v : Word) : (tblIndex v).toNat = v.toNat / 4096 % 1024 := by
  have : (0x3FF#32 : Word).toNat = 2 ^ 10 - 1 := by decide
  simp only [tblIndex, BitVec.toNat_and, this, Nat.and_two_pow_sub_one_eq_mod, BitVec.toNat_ushiftRight,
    Nat.shiftRight_eq_div_pow]

theorem toNat_vpnOf (v : Word) : (vpnOf v).toNat = v.toNat / 4096 := by
  have := v.isLt
  simp only [vpnOf, BitVec.extractLsb'_toNat, Nat.shiftRight_eq_div_pow]
  norm_num
  omega

@[simp] theorem dirIndex_alignPage (v : Word) : dirIndex (alignPage v) = dirIndex v := by
  apply BitVec.eq_of_toNat_eq
  rw [toNat_dirIndex, toNat_dirIndex, toNat_alignPage]
  omega

@[simp] theorem tblIndex_alignPage (v : Word) : tblIndex (alignPage v) = tblIndex v := by
  apply BitVec.eq_of_toNat_eq
  rw [toNat_tblIndex, toNat_tblIndex, toNat_alignPage]
  omega

@[simp] theorem vpnOf_alignPage (v : Word) : vpnOf (alignPage v) = vpnOf v := by
  apply BitVec.eq_of_toNat_eq
  rw [toNat_vpnOf, toNat_vpnOf, toNat_alignPage]
  omega

@[simp] theorem alignPage_alignPage (v : Word) : alignPage (alignPage v) = alignPage v := by
  apply BitVec.eq_of_toNat_eq
  rw [toNat_alignPage, toNat_alignPage]
  omega

@[simp] theorem pdeAddr_alignPage (s : State) (v : Word) : pdeAddr s (alignPage v) = pdeAddr s v := by
  simp [pdeAddr, pdeAddrIn]

@[simp] theorem pteAddr_alignPage (pde v : Word) : pteAddr pde (alignPage v) = pteAddr pde v := by simp [pteAddr]

theorem toNat_dirBase (s : State) : (dirBase s).toNat = s.curDir.toNat * 4096 := by
  have := s.curDir.isLt
  simp only [dirBase, BitVec.toNat_shiftLeft, BitVec.toNat_setWidth, Nat.shiftLeft_eq]
  norm_num at *
  omega

/-- `pde_addr(v)` as a number: no carry out (R46). -/
theorem toNat_pdeAddr (s : State) (v : Word) : (pdeAddr s v).toNat = s.curDir.toNat * 4096 + 4 * (v.toNat / 4194304) := by
  have h1 := s.curDir.isLt
  have h2 := v.isLt
  have h4 : (4#32 : Word).toNat = 4 := by decide
  simp only [pdeAddr, pdeAddrIn, BitVec.toNat_add, BitVec.toNat_mul, toNat_dirBase, toNat_dirIndex, h4]
  norm_num at *
  omega

/-- `pte_addr(pde, v)` as a number: no carry out (R46). -/
theorem toNat_pteAddr (pde v : Word) :
    (pteAddr pde v).toNat = pde.toNat / 4096 * 4096 + 4 * (v.toNat / 4096 % 1024) := by
  have h1 := pde.isLt
  have h2 := v.isLt
  have h4 : (4#32 : Word).toNat = 4 := by decide
  simp only [pteAddr, BitVec.toNat_add, BitVec.toNat_mul, toNat_frameAddress, toNat_tblIndex, h4]
  norm_num at *
  omega

/-- Entry addresses are multiples of 4 (R43). -/
theorem pdeAddr_mod_four (s : State) (v : Word) : (pdeAddr s v).toNat % 4 = 0 := by rw [toNat_pdeAddr]; omega

/-- Entry addresses are multiples of 4 (R43). -/
theorem pteAddr_mod_four (pde v : Word) : (pteAddr pde v).toNat % 4 = 0 := by rw [toNat_pteAddr]; omega

/-- Bit by bit, the PDE update takes the masked bits from the record and the others from the old entry (R190). -/
theorem getLsbD_updatePde (m f : FlagsRecord) (pde : Word) (i : Nat) :
    (updatePde m pde f).getLsbD i = if m.getLsbD i then f.getLsbD i else pde.getLsbD i := by
  by_cases hi : i < 32
  · simp only [updatePde, BitVec.getLsbD_or, BitVec.getLsbD_and, BitVec.getLsbD_not, BitVec.getLsbD_setWidth]
    cases hm : m.getLsbD i <;> simp [hi]
  · have h1 : m.getLsbD i = false := BitVec.getLsbD_of_ge _ _ (by omega)
    have h2 : pde.getLsbD i = false := BitVec.getLsbD_of_ge _ _ (by omega)
    rw [BitVec.getLsbD_of_ge _ _ (by omega)]
    simp [h1, h2]

/-- The base is untouched (R190). -/
@[simp] theorem frameAddress_updatePde (m f : FlagsRecord) (pde : Word) : frameAddress (updatePde m pde f) = frameAddress pde := by
  apply BitVec.eq_of_getLsbD_eq
  intro i hi
  simp only [frameAddress, BitVec.getLsbD_and, getLsbD_frameMask, getLsbD_updatePde]
  by_cases h : 12 ≤ i
  · have : m.getLsbD i = false := BitVec.getLsbD_of_ge _ _ (by omega)
    simp [this]
  · simp [h]

@[simp] theorem pteAddr_updatePde (m f : FlagsRecord) (pde v : Word) : pteAddr (updatePde m pde f) v = pteAddr pde v := by
  simp [pteAddr]

/-- Bit by bit, ENC_PDE and ENC_PTE (R140, R142). -/
theorem getLsbD_packPte (pa : Word) (fl : FlagsRecord) (i : Nat) :
    (packPte pa fl).getLsbD i = if i < 12 then fl.getLsbD i else pa.getLsbD i := by
  simp only [packPte, BitVec.getLsbD_or, BitVec.getLsbD_and, getLsbD_frameMask, BitVec.getLsbD_setWidth]
  by_cases h : i < 12
  · have h1 : ¬ 12 ≤ i := by omega
    have h2 : i < 32 := by omega
    simp [h, h1, h2]
  · have h1 : 12 ≤ i := by omega
    have h2 : fl.getLsbD i = false := BitVec.getLsbD_of_ge _ _ (by omega)
    by_cases h3 : i < 32
    · simp [h, h1, h3]
    · have : pa.getLsbD i = false := BitVec.getLsbD_of_ge _ _ (by omega)
      simp [h, h2, h3, this]

theorem packPde_eq_packPte (pa : Word) (fl : FlagsRecord) : packPde pa fl = packPte pa fl := rfl

@[simp] theorem entryP_packPte (pa : Word) (fl : FlagsRecord) : entryP (packPte pa fl) = fl.getLsbD 0 := by
  rw [entryP, getLsbD_packPte]
  rfl

@[simp] theorem frameAddress_packPte (pa : Word) (fl : FlagsRecord) : frameAddress (packPte pa fl) = alignPage pa := by
  apply BitVec.eq_of_getLsbD_eq
  intro i hi
  simp only [frameAddress, alignPage, BitVec.getLsbD_and, getLsbD_frameMask, getLsbD_packPte]
  by_cases h : i < 12
  · have : ¬ 12 ≤ i := by omega
    simp [this]
  · simp [h]

theorem entryP_updatePde (m f : FlagsRecord) (pde : Word) :
    entryP (updatePde m pde f) = if m.getLsbD 0 then f.getLsbD 0 else entryP pde := by
  rw [entryP, getLsbD_updatePde, entryP]

@[simp] theorem entryP_zero : entryP 0#32 = false := by decide

end Sys2Proof.Machine
end

