-- ==== Sys2Proof/Laws/State.lean ====
section
/-! SUPPORT. What each named update of State does to each field, so that no later proof unfolds a record update. -/

namespace Sys2Proof.Machine

open Sys2Proof

@[simp] theorem State.setInputs_cfg (s : State) (l : List Input) : (s.setInputs l).cfg = s.cfg := rfl
@[simp] theorem State.setInputs_inputs (s : State) (l : List Input) : (s.setInputs l).inputs = l := rfl
@[simp] theorem State.setInputs_op (s : State) (l : List Input) : (s.setInputs l).op = s.op := rfl
@[simp] theorem State.setInputs_a0 (s : State) (l : List Input) : (s.setInputs l).a0 = s.a0 := rfl
@[simp] theorem State.setInputs_a1 (s : State) (l : List Input) : (s.setInputs l).a1 = s.a1 := rfl
@[simp] theorem State.setInputs_a2 (s : State) (l : List Input) : (s.setInputs l).a2 = s.a2 := rfl
@[simp] theorem State.setInputs_a3 (s : State) (l : List Input) : (s.setInputs l).a3 = s.a3 := rfl
@[simp] theorem State.setInputs_y0 (s : State) (l : List Input) : (s.setInputs l).y0 = s.y0 := rfl
@[simp] theorem State.setInputs_y1 (s : State) (l : List Input) : (s.setInputs l).y1 = s.y1 := rfl
@[simp] theorem State.setInputs_ok (s : State) (l : List Input) : (s.setInputs l).ok = s.ok := rfl
@[simp] theorem State.setInputs_ph (s : State) (l : List Input) : (s.setInputs l).ph = s.ph := rfl
@[simp] theorem State.setInputs_bound (s : State) (l : List Input) : (s.setInputs l).bound = s.bound := rfl
@[simp] theorem State.setInputs_curDir (s : State) (l : List Input) : (s.setInputs l).curDir = s.curDir := rfl
@[simp] theorem State.setInputs_invPending (s : State) (l : List Input) : (s.setInputs l).invPending = s.invPending := rfl
@[simp] theorem State.setInputs_invAddr (s : State) (l : List Input) : (s.setInputs l).invAddr = s.invAddr := rfl
@[simp] theorem State.setInputs_gdt (s : State) (l : List Input) : (s.setInputs l).gdt = s.gdt := rfl
@[simp] theorem State.setInputs_gdtr (s : State) (l : List Input) : (s.setInputs l).gdtr = s.gdtr := rfl
@[simp] theorem State.setInputs_segs (s : State) (l : List Input) : (s.setInputs l).segs = s.segs := rfl
@[simp] theorem State.setInputs_cr3 (s : State) (l : List Input) : (s.setInputs l).cr3 = s.cr3 := rfl
@[simp] theorem State.setInputs_mem (s : State) (l : List Input) : (s.setInputs l).mem = s.mem := rfl
@[simp] theorem State.setInputs_tlb (s : State) (l : List Input) : (s.setInputs l).tlb = s.tlb := rfl
@[simp] theorem State.setInputs_cpuTick (s : State) (l : List Input) : (s.setInputs l).cpuTick = s.cpuTick := rfl
@[simp] theorem State.setInputs_ret (s : State) (l : List Input) : (s.setInputs l).ret = s.ret := rfl

@[simp] theorem State.setOp_cfg (s : State) (c : Byte) : (s.setOp c).cfg = s.cfg := rfl
@[simp] theorem State.setOp_inputs (s : State) (c : Byte) : (s.setOp c).inputs = s.inputs := rfl
@[simp] theorem State.setOp_op (s : State) (c : Byte) : (s.setOp c).op = c := rfl
@[simp] theorem State.setOp_a0 (s : State) (c : Byte) : (s.setOp c).a0 = s.a0 := rfl
@[simp] theorem State.setOp_a1 (s : State) (c : Byte) : (s.setOp c).a1 = s.a1 := rfl
@[simp] theorem State.setOp_a2 (s : State) (c : Byte) : (s.setOp c).a2 = s.a2 := rfl
@[simp] theorem State.setOp_a3 (s : State) (c : Byte) : (s.setOp c).a3 = s.a3 := rfl
@[simp] theorem State.setOp_y0 (s : State) (c : Byte) : (s.setOp c).y0 = s.y0 := rfl
@[simp] theorem State.setOp_y1 (s : State) (c : Byte) : (s.setOp c).y1 = s.y1 := rfl
@[simp] theorem State.setOp_ok (s : State) (c : Byte) : (s.setOp c).ok = s.ok := rfl
@[simp] theorem State.setOp_ph (s : State) (c : Byte) : (s.setOp c).ph = s.ph := rfl
@[simp] theorem State.setOp_bound (s : State) (c : Byte) : (s.setOp c).bound = s.bound := rfl
@[simp] theorem State.setOp_curDir (s : State) (c : Byte) : (s.setOp c).curDir = s.curDir := rfl
@[simp] theorem State.setOp_invPending (s : State) (c : Byte) : (s.setOp c).invPending = s.invPending := rfl
@[simp] theorem State.setOp_invAddr (s : State) (c : Byte) : (s.setOp c).invAddr = s.invAddr := rfl
@[simp] theorem State.setOp_gdt (s : State) (c : Byte) : (s.setOp c).gdt = s.gdt := rfl
@[simp] theorem State.setOp_gdtr (s : State) (c : Byte) : (s.setOp c).gdtr = s.gdtr := rfl
@[simp] theorem State.setOp_segs (s : State) (c : Byte) : (s.setOp c).segs = s.segs := rfl
@[simp] theorem State.setOp_cr3 (s : State) (c : Byte) : (s.setOp c).cr3 = s.cr3 := rfl
@[simp] theorem State.setOp_mem (s : State) (c : Byte) : (s.setOp c).mem = s.mem := rfl
@[simp] theorem State.setOp_tlb (s : State) (c : Byte) : (s.setOp c).tlb = s.tlb := rfl
@[simp] theorem State.setOp_cpuTick (s : State) (c : Byte) : (s.setOp c).cpuTick = s.cpuTick := rfl
@[simp] theorem State.setOp_ret (s : State) (c : Byte) : (s.setOp c).ret = s.ret := rfl

@[simp] theorem State.setResults_cfg (s : State) (y0 y1 : Option Word) (k : Option Bool) : (s.setResults y0 y1 k).cfg = s.cfg := rfl
@[simp] theorem State.setResults_inputs (s : State) (y0 y1 : Option Word) (k : Option Bool) : (s.setResults y0 y1 k).inputs = s.inputs := rfl
@[simp] theorem State.setResults_op (s : State) (y0 y1 : Option Word) (k : Option Bool) : (s.setResults y0 y1 k).op = s.op := rfl
@[simp] theorem State.setResults_a0 (s : State) (y0 y1 : Option Word) (k : Option Bool) : (s.setResults y0 y1 k).a0 = s.a0 := rfl
@[simp] theorem State.setResults_a1 (s : State) (y0 y1 : Option Word) (k : Option Bool) : (s.setResults y0 y1 k).a1 = s.a1 := rfl
@[simp] theorem State.setResults_a2 (s : State) (y0 y1 : Option Word) (k : Option Bool) : (s.setResults y0 y1 k).a2 = s.a2 := rfl
@[simp] theorem State.setResults_a3 (s : State) (y0 y1 : Option Word) (k : Option Bool) : (s.setResults y0 y1 k).a3 = s.a3 := rfl
@[simp] theorem State.setResults_y0 (s : State) (y0 y1 : Option Word) (k : Option Bool) : (s.setResults y0 y1 k).y0 = y0 := rfl
@[simp] theorem State.setResults_y1 (s : State) (y0 y1 : Option Word) (k : Option Bool) : (s.setResults y0 y1 k).y1 = y1 := rfl
@[simp] theorem State.setResults_ok (s : State) (y0 y1 : Option Word) (k : Option Bool) : (s.setResults y0 y1 k).ok = k := rfl
@[simp] theorem State.setResults_ph (s : State) (y0 y1 : Option Word) (k : Option Bool) : (s.setResults y0 y1 k).ph = s.ph := rfl
@[simp] theorem State.setResults_bound (s : State) (y0 y1 : Option Word) (k : Option Bool) : (s.setResults y0 y1 k).bound = s.bound := rfl
@[simp] theorem State.setResults_curDir (s : State) (y0 y1 : Option Word) (k : Option Bool) : (s.setResults y0 y1 k).curDir = s.curDir := rfl
@[simp] theorem State.setResults_invPending (s : State) (y0 y1 : Option Word) (k : Option Bool) : (s.setResults y0 y1 k).invPending = s.invPending := rfl
@[simp] theorem State.setResults_invAddr (s : State) (y0 y1 : Option Word) (k : Option Bool) : (s.setResults y0 y1 k).invAddr = s.invAddr := rfl
@[simp] theorem State.setResults_gdt (s : State) (y0 y1 : Option Word) (k : Option Bool) : (s.setResults y0 y1 k).gdt = s.gdt := rfl
@[simp] theorem State.setResults_gdtr (s : State) (y0 y1 : Option Word) (k : Option Bool) : (s.setResults y0 y1 k).gdtr = s.gdtr := rfl
@[simp] theorem State.setResults_segs (s : State) (y0 y1 : Option Word) (k : Option Bool) : (s.setResults y0 y1 k).segs = s.segs := rfl
@[simp] theorem State.setResults_cr3 (s : State) (y0 y1 : Option Word) (k : Option Bool) : (s.setResults y0 y1 k).cr3 = s.cr3 := rfl
@[simp] theorem State.setResults_mem (s : State) (y0 y1 : Option Word) (k : Option Bool) : (s.setResults y0 y1 k).mem = s.mem := rfl
@[simp] theorem State.setResults_tlb (s : State) (y0 y1 : Option Word) (k : Option Bool) : (s.setResults y0 y1 k).tlb = s.tlb := rfl
@[simp] theorem State.setResults_cpuTick (s : State) (y0 y1 : Option Word) (k : Option Bool) : (s.setResults y0 y1 k).cpuTick = s.cpuTick := rfl
@[simp] theorem State.setResults_ret (s : State) (y0 y1 : Option Word) (k : Option Bool) : (s.setResults y0 y1 k).ret = s.ret := rfl

@[simp] theorem State.setPhase_cfg (s : State) (p : Phase) : (s.setPhase p).cfg = s.cfg := rfl
@[simp] theorem State.setPhase_inputs (s : State) (p : Phase) : (s.setPhase p).inputs = s.inputs := rfl
@[simp] theorem State.setPhase_op (s : State) (p : Phase) : (s.setPhase p).op = s.op := rfl
@[simp] theorem State.setPhase_a0 (s : State) (p : Phase) : (s.setPhase p).a0 = s.a0 := rfl
@[simp] theorem State.setPhase_a1 (s : State) (p : Phase) : (s.setPhase p).a1 = s.a1 := rfl
@[simp] theorem State.setPhase_a2 (s : State) (p : Phase) : (s.setPhase p).a2 = s.a2 := rfl
@[simp] theorem State.setPhase_a3 (s : State) (p : Phase) : (s.setPhase p).a3 = s.a3 := rfl
@[simp] theorem State.setPhase_y0 (s : State) (p : Phase) : (s.setPhase p).y0 = s.y0 := rfl
@[simp] theorem State.setPhase_y1 (s : State) (p : Phase) : (s.setPhase p).y1 = s.y1 := rfl
@[simp] theorem State.setPhase_ok (s : State) (p : Phase) : (s.setPhase p).ok = s.ok := rfl
@[simp] theorem State.setPhase_ph (s : State) (p : Phase) : (s.setPhase p).ph = p := rfl
@[simp] theorem State.setPhase_bound (s : State) (p : Phase) : (s.setPhase p).bound = s.bound := rfl
@[simp] theorem State.setPhase_curDir (s : State) (p : Phase) : (s.setPhase p).curDir = s.curDir := rfl
@[simp] theorem State.setPhase_invPending (s : State) (p : Phase) : (s.setPhase p).invPending = s.invPending := rfl
@[simp] theorem State.setPhase_invAddr (s : State) (p : Phase) : (s.setPhase p).invAddr = s.invAddr := rfl
@[simp] theorem State.setPhase_gdt (s : State) (p : Phase) : (s.setPhase p).gdt = s.gdt := rfl
@[simp] theorem State.setPhase_gdtr (s : State) (p : Phase) : (s.setPhase p).gdtr = s.gdtr := rfl
@[simp] theorem State.setPhase_segs (s : State) (p : Phase) : (s.setPhase p).segs = s.segs := rfl
@[simp] theorem State.setPhase_cr3 (s : State) (p : Phase) : (s.setPhase p).cr3 = s.cr3 := rfl
@[simp] theorem State.setPhase_mem (s : State) (p : Phase) : (s.setPhase p).mem = s.mem := rfl
@[simp] theorem State.setPhase_tlb (s : State) (p : Phase) : (s.setPhase p).tlb = s.tlb := rfl
@[simp] theorem State.setPhase_cpuTick (s : State) (p : Phase) : (s.setPhase p).cpuTick = s.cpuTick := rfl
@[simp] theorem State.setPhase_ret (s : State) (p : Phase) : (s.setPhase p).ret = s.ret := rfl

@[simp] theorem State.bind_cfg (s : State) (d : PageNumber) : (s.bind d).cfg = s.cfg := rfl
@[simp] theorem State.bind_inputs (s : State) (d : PageNumber) : (s.bind d).inputs = s.inputs := rfl
@[simp] theorem State.bind_op (s : State) (d : PageNumber) : (s.bind d).op = s.op := rfl
@[simp] theorem State.bind_a0 (s : State) (d : PageNumber) : (s.bind d).a0 = s.a0 := rfl
@[simp] theorem State.bind_a1 (s : State) (d : PageNumber) : (s.bind d).a1 = s.a1 := rfl
@[simp] theorem State.bind_a2 (s : State) (d : PageNumber) : (s.bind d).a2 = s.a2 := rfl
@[simp] theorem State.bind_a3 (s : State) (d : PageNumber) : (s.bind d).a3 = s.a3 := rfl
@[simp] theorem State.bind_y0 (s : State) (d : PageNumber) : (s.bind d).y0 = s.y0 := rfl
@[simp] theorem State.bind_y1 (s : State) (d : PageNumber) : (s.bind d).y1 = s.y1 := rfl
@[simp] theorem State.bind_ok (s : State) (d : PageNumber) : (s.bind d).ok = s.ok := rfl
@[simp] theorem State.bind_ph (s : State) (d : PageNumber) : (s.bind d).ph = s.ph := rfl
@[simp] theorem State.bind_bound (s : State) (d : PageNumber) : (s.bind d).bound = true := rfl
@[simp] theorem State.bind_curDir (s : State) (d : PageNumber) : (s.bind d).curDir = d := rfl
@[simp] theorem State.bind_invPending (s : State) (d : PageNumber) : (s.bind d).invPending = s.invPending := rfl
@[simp] theorem State.bind_invAddr (s : State) (d : PageNumber) : (s.bind d).invAddr = s.invAddr := rfl
@[simp] theorem State.bind_gdt (s : State) (d : PageNumber) : (s.bind d).gdt = s.gdt := rfl
@[simp] theorem State.bind_gdtr (s : State) (d : PageNumber) : (s.bind d).gdtr = s.gdtr := rfl
@[simp] theorem State.bind_segs (s : State) (d : PageNumber) : (s.bind d).segs = s.segs := rfl
@[simp] theorem State.bind_cr3 (s : State) (d : PageNumber) : (s.bind d).cr3 = s.cr3 := rfl
@[simp] theorem State.bind_mem (s : State) (d : PageNumber) : (s.bind d).mem = s.mem := rfl
@[simp] theorem State.bind_tlb (s : State) (d : PageNumber) : (s.bind d).tlb = s.tlb := rfl
@[simp] theorem State.bind_cpuTick (s : State) (d : PageNumber) : (s.bind d).cpuTick = s.cpuTick := rfl
@[simp] theorem State.bind_ret (s : State) (d : PageNumber) : (s.bind d).ret = s.ret := rfl

@[simp] theorem State.setPending_cfg (s : State) (b : Bool) (a : Word) : (s.setPending b a).cfg = s.cfg := rfl
@[simp] theorem State.setPending_inputs (s : State) (b : Bool) (a : Word) : (s.setPending b a).inputs = s.inputs := rfl
@[simp] theorem State.setPending_op (s : State) (b : Bool) (a : Word) : (s.setPending b a).op = s.op := rfl
@[simp] theorem State.setPending_a0 (s : State) (b : Bool) (a : Word) : (s.setPending b a).a0 = s.a0 := rfl
@[simp] theorem State.setPending_a1 (s : State) (b : Bool) (a : Word) : (s.setPending b a).a1 = s.a1 := rfl
@[simp] theorem State.setPending_a2 (s : State) (b : Bool) (a : Word) : (s.setPending b a).a2 = s.a2 := rfl
@[simp] theorem State.setPending_a3 (s : State) (b : Bool) (a : Word) : (s.setPending b a).a3 = s.a3 := rfl
@[simp] theorem State.setPending_y0 (s : State) (b : Bool) (a : Word) : (s.setPending b a).y0 = s.y0 := rfl
@[simp] theorem State.setPending_y1 (s : State) (b : Bool) (a : Word) : (s.setPending b a).y1 = s.y1 := rfl
@[simp] theorem State.setPending_ok (s : State) (b : Bool) (a : Word) : (s.setPending b a).ok = s.ok := rfl
@[simp] theorem State.setPending_ph (s : State) (b : Bool) (a : Word) : (s.setPending b a).ph = s.ph := rfl
@[simp] theorem State.setPending_bound (s : State) (b : Bool) (a : Word) : (s.setPending b a).bound = s.bound := rfl
@[simp] theorem State.setPending_curDir (s : State) (b : Bool) (a : Word) : (s.setPending b a).curDir = s.curDir := rfl
@[simp] theorem State.setPending_invPending (s : State) (b : Bool) (a : Word) : (s.setPending b a).invPending = b := rfl
@[simp] theorem State.setPending_invAddr (s : State) (b : Bool) (a : Word) : (s.setPending b a).invAddr = a := rfl
@[simp] theorem State.setPending_gdt (s : State) (b : Bool) (a : Word) : (s.setPending b a).gdt = s.gdt := rfl
@[simp] theorem State.setPending_gdtr (s : State) (b : Bool) (a : Word) : (s.setPending b a).gdtr = s.gdtr := rfl
@[simp] theorem State.setPending_segs (s : State) (b : Bool) (a : Word) : (s.setPending b a).segs = s.segs := rfl
@[simp] theorem State.setPending_cr3 (s : State) (b : Bool) (a : Word) : (s.setPending b a).cr3 = s.cr3 := rfl
@[simp] theorem State.setPending_mem (s : State) (b : Bool) (a : Word) : (s.setPending b a).mem = s.mem := rfl
@[simp] theorem State.setPending_tlb (s : State) (b : Bool) (a : Word) : (s.setPending b a).tlb = s.tlb := rfl
@[simp] theorem State.setPending_cpuTick (s : State) (b : Bool) (a : Word) : (s.setPending b a).cpuTick = s.cpuTick := rfl
@[simp] theorem State.setPending_ret (s : State) (b : Bool) (a : Word) : (s.setPending b a).ret = s.ret := rfl

@[simp] theorem State.setGdt_cfg (s : State) (g : Vector Descriptor 6) : (s.setGdt g).cfg = s.cfg := rfl
@[simp] theorem State.setGdt_inputs (s : State) (g : Vector Descriptor 6) : (s.setGdt g).inputs = s.inputs := rfl
@[simp] theorem State.setGdt_op (s : State) (g : Vector Descriptor 6) : (s.setGdt g).op = s.op := rfl
@[simp] theorem State.setGdt_a0 (s : State) (g : Vector Descriptor 6) : (s.setGdt g).a0 = s.a0 := rfl
@[simp] theorem State.setGdt_a1 (s : State) (g : Vector Descriptor 6) : (s.setGdt g).a1 = s.a1 := rfl
@[simp] theorem State.setGdt_a2 (s : State) (g : Vector Descriptor 6) : (s.setGdt g).a2 = s.a2 := rfl
@[simp] theorem State.setGdt_a3 (s : State) (g : Vector Descriptor 6) : (s.setGdt g).a3 = s.a3 := rfl
@[simp] theorem State.setGdt_y0 (s : State) (g : Vector Descriptor 6) : (s.setGdt g).y0 = s.y0 := rfl
@[simp] theorem State.setGdt_y1 (s : State) (g : Vector Descriptor 6) : (s.setGdt g).y1 = s.y1 := rfl
@[simp] theorem State.setGdt_ok (s : State) (g : Vector Descriptor 6) : (s.setGdt g).ok = s.ok := rfl
@[simp] theorem State.setGdt_ph (s : State) (g : Vector Descriptor 6) : (s.setGdt g).ph = s.ph := rfl
@[simp] theorem State.setGdt_bound (s : State) (g : Vector Descriptor 6) : (s.setGdt g).bound = s.bound := rfl
@[simp] theorem State.setGdt_curDir (s : State) (g : Vector Descriptor 6) : (s.setGdt g).curDir = s.curDir := rfl
@[simp] theorem State.setGdt_invPending (s : State) (g : Vector Descriptor 6) : (s.setGdt g).invPending = s.invPending := rfl
@[simp] theorem State.setGdt_invAddr (s : State) (g : Vector Descriptor 6) : (s.setGdt g).invAddr = s.invAddr := rfl
@[simp] theorem State.setGdt_gdt (s : State) (g : Vector Descriptor 6) : (s.setGdt g).gdt = g := rfl
@[simp] theorem State.setGdt_gdtr (s : State) (g : Vector Descriptor 6) : (s.setGdt g).gdtr = s.gdtr := rfl
@[simp] theorem State.setGdt_segs (s : State) (g : Vector Descriptor 6) : (s.setGdt g).segs = s.segs := rfl
@[simp] theorem State.setGdt_cr3 (s : State) (g : Vector Descriptor 6) : (s.setGdt g).cr3 = s.cr3 := rfl
@[simp] theorem State.setGdt_mem (s : State) (g : Vector Descriptor 6) : (s.setGdt g).mem = s.mem := rfl
@[simp] theorem State.setGdt_tlb (s : State) (g : Vector Descriptor 6) : (s.setGdt g).tlb = s.tlb := rfl
@[simp] theorem State.setGdt_cpuTick (s : State) (g : Vector Descriptor 6) : (s.setGdt g).cpuTick = s.cpuTick := rfl
@[simp] theorem State.setGdt_ret (s : State) (g : Vector Descriptor 6) : (s.setGdt g).ret = s.ret := rfl

@[simp] theorem State.setGdtr_cfg (s : State) (l : Half) (b : Word) : (s.setGdtr l b).cfg = s.cfg := rfl
@[simp] theorem State.setGdtr_inputs (s : State) (l : Half) (b : Word) : (s.setGdtr l b).inputs = s.inputs := rfl
@[simp] theorem State.setGdtr_op (s : State) (l : Half) (b : Word) : (s.setGdtr l b).op = s.op := rfl
@[simp] theorem State.setGdtr_a0 (s : State) (l : Half) (b : Word) : (s.setGdtr l b).a0 = s.a0 := rfl
@[simp] theorem State.setGdtr_a1 (s : State) (l : Half) (b : Word) : (s.setGdtr l b).a1 = s.a1 := rfl
@[simp] theorem State.setGdtr_a2 (s : State) (l : Half) (b : Word) : (s.setGdtr l b).a2 = s.a2 := rfl
@[simp] theorem State.setGdtr_a3 (s : State) (l : Half) (b : Word) : (s.setGdtr l b).a3 = s.a3 := rfl
@[simp] theorem State.setGdtr_y0 (s : State) (l : Half) (b : Word) : (s.setGdtr l b).y0 = s.y0 := rfl
@[simp] theorem State.setGdtr_y1 (s : State) (l : Half) (b : Word) : (s.setGdtr l b).y1 = s.y1 := rfl
@[simp] theorem State.setGdtr_ok (s : State) (l : Half) (b : Word) : (s.setGdtr l b).ok = s.ok := rfl
@[simp] theorem State.setGdtr_ph (s : State) (l : Half) (b : Word) : (s.setGdtr l b).ph = s.ph := rfl
@[simp] theorem State.setGdtr_bound (s : State) (l : Half) (b : Word) : (s.setGdtr l b).bound = s.bound := rfl
@[simp] theorem State.setGdtr_curDir (s : State) (l : Half) (b : Word) : (s.setGdtr l b).curDir = s.curDir := rfl
@[simp] theorem State.setGdtr_invPending (s : State) (l : Half) (b : Word) : (s.setGdtr l b).invPending = s.invPending := rfl
@[simp] theorem State.setGdtr_invAddr (s : State) (l : Half) (b : Word) : (s.setGdtr l b).invAddr = s.invAddr := rfl
@[simp] theorem State.setGdtr_gdt (s : State) (l : Half) (b : Word) : (s.setGdtr l b).gdt = s.gdt := rfl
@[simp] theorem State.setGdtr_gdtr (s : State) (l : Half) (b : Word) : (s.setGdtr l b).gdtr = { limit := l, base := b } := rfl
@[simp] theorem State.setGdtr_segs (s : State) (l : Half) (b : Word) : (s.setGdtr l b).segs = s.segs := rfl
@[simp] theorem State.setGdtr_cr3 (s : State) (l : Half) (b : Word) : (s.setGdtr l b).cr3 = s.cr3 := rfl
@[simp] theorem State.setGdtr_mem (s : State) (l : Half) (b : Word) : (s.setGdtr l b).mem = s.mem := rfl
@[simp] theorem State.setGdtr_tlb (s : State) (l : Half) (b : Word) : (s.setGdtr l b).tlb = s.tlb := rfl
@[simp] theorem State.setGdtr_cpuTick (s : State) (l : Half) (b : Word) : (s.setGdtr l b).cpuTick = s.cpuTick := rfl
@[simp] theorem State.setGdtr_ret (s : State) (l : Half) (b : Word) : (s.setGdtr l b).ret = s.ret := rfl

@[simp] theorem State.setSegs_cfg (s : State) (r : SegRegs) : (s.setSegs r).cfg = s.cfg := rfl
@[simp] theorem State.setSegs_inputs (s : State) (r : SegRegs) : (s.setSegs r).inputs = s.inputs := rfl
@[simp] theorem State.setSegs_op (s : State) (r : SegRegs) : (s.setSegs r).op = s.op := rfl
@[simp] theorem State.setSegs_a0 (s : State) (r : SegRegs) : (s.setSegs r).a0 = s.a0 := rfl
@[simp] theorem State.setSegs_a1 (s : State) (r : SegRegs) : (s.setSegs r).a1 = s.a1 := rfl
@[simp] theorem State.setSegs_a2 (s : State) (r : SegRegs) : (s.setSegs r).a2 = s.a2 := rfl
@[simp] theorem State.setSegs_a3 (s : State) (r : SegRegs) : (s.setSegs r).a3 = s.a3 := rfl
@[simp] theorem State.setSegs_y0 (s : State) (r : SegRegs) : (s.setSegs r).y0 = s.y0 := rfl
@[simp] theorem State.setSegs_y1 (s : State) (r : SegRegs) : (s.setSegs r).y1 = s.y1 := rfl
@[simp] theorem State.setSegs_ok (s : State) (r : SegRegs) : (s.setSegs r).ok = s.ok := rfl
@[simp] theorem State.setSegs_ph (s : State) (r : SegRegs) : (s.setSegs r).ph = s.ph := rfl
@[simp] theorem State.setSegs_bound (s : State) (r : SegRegs) : (s.setSegs r).bound = s.bound := rfl
@[simp] theorem State.setSegs_curDir (s : State) (r : SegRegs) : (s.setSegs r).curDir = s.curDir := rfl
@[simp] theorem State.setSegs_invPending (s : State) (r : SegRegs) : (s.setSegs r).invPending = s.invPending := rfl
@[simp] theorem State.setSegs_invAddr (s : State) (r : SegRegs) : (s.setSegs r).invAddr = s.invAddr := rfl
@[simp] theorem State.setSegs_gdt (s : State) (r : SegRegs) : (s.setSegs r).gdt = s.gdt := rfl
@[simp] theorem State.setSegs_gdtr (s : State) (r : SegRegs) : (s.setSegs r).gdtr = s.gdtr := rfl
@[simp] theorem State.setSegs_segs (s : State) (r : SegRegs) : (s.setSegs r).segs = r := rfl
@[simp] theorem State.setSegs_cr3 (s : State) (r : SegRegs) : (s.setSegs r).cr3 = s.cr3 := rfl
@[simp] theorem State.setSegs_mem (s : State) (r : SegRegs) : (s.setSegs r).mem = s.mem := rfl
@[simp] theorem State.setSegs_tlb (s : State) (r : SegRegs) : (s.setSegs r).tlb = s.tlb := rfl
@[simp] theorem State.setSegs_cpuTick (s : State) (r : SegRegs) : (s.setSegs r).cpuTick = s.cpuTick := rfl
@[simp] theorem State.setSegs_ret (s : State) (r : SegRegs) : (s.setSegs r).ret = s.ret := rfl

@[simp] theorem State.setCr3_cfg (s : State) (v : Word) : (s.setCr3 v).cfg = s.cfg := rfl
@[simp] theorem State.setCr3_inputs (s : State) (v : Word) : (s.setCr3 v).inputs = s.inputs := rfl
@[simp] theorem State.setCr3_op (s : State) (v : Word) : (s.setCr3 v).op = s.op := rfl
@[simp] theorem State.setCr3_a0 (s : State) (v : Word) : (s.setCr3 v).a0 = s.a0 := rfl
@[simp] theorem State.setCr3_a1 (s : State) (v : Word) : (s.setCr3 v).a1 = s.a1 := rfl
@[simp] theorem State.setCr3_a2 (s : State) (v : Word) : (s.setCr3 v).a2 = s.a2 := rfl
@[simp] theorem State.setCr3_a3 (s : State) (v : Word) : (s.setCr3 v).a3 = s.a3 := rfl
@[simp] theorem State.setCr3_y0 (s : State) (v : Word) : (s.setCr3 v).y0 = s.y0 := rfl
@[simp] theorem State.setCr3_y1 (s : State) (v : Word) : (s.setCr3 v).y1 = s.y1 := rfl
@[simp] theorem State.setCr3_ok (s : State) (v : Word) : (s.setCr3 v).ok = s.ok := rfl
@[simp] theorem State.setCr3_ph (s : State) (v : Word) : (s.setCr3 v).ph = s.ph := rfl
@[simp] theorem State.setCr3_bound (s : State) (v : Word) : (s.setCr3 v).bound = s.bound := rfl
@[simp] theorem State.setCr3_curDir (s : State) (v : Word) : (s.setCr3 v).curDir = s.curDir := rfl
@[simp] theorem State.setCr3_invPending (s : State) (v : Word) : (s.setCr3 v).invPending = s.invPending := rfl
@[simp] theorem State.setCr3_invAddr (s : State) (v : Word) : (s.setCr3 v).invAddr = s.invAddr := rfl
@[simp] theorem State.setCr3_gdt (s : State) (v : Word) : (s.setCr3 v).gdt = s.gdt := rfl
@[simp] theorem State.setCr3_gdtr (s : State) (v : Word) : (s.setCr3 v).gdtr = s.gdtr := rfl
@[simp] theorem State.setCr3_segs (s : State) (v : Word) : (s.setCr3 v).segs = s.segs := rfl
@[simp] theorem State.setCr3_cr3 (s : State) (v : Word) : (s.setCr3 v).cr3 = v := rfl
@[simp] theorem State.setCr3_mem (s : State) (v : Word) : (s.setCr3 v).mem = s.mem := rfl
@[simp] theorem State.setCr3_tlb (s : State) (v : Word) : (s.setCr3 v).tlb = s.tlb := rfl
@[simp] theorem State.setCr3_cpuTick (s : State) (v : Word) : (s.setCr3 v).cpuTick = s.cpuTick := rfl
@[simp] theorem State.setCr3_ret (s : State) (v : Word) : (s.setCr3 v).ret = s.ret := rfl

@[simp] theorem State.setMem_cfg (s : State) (m : Memory) : (s.setMem m).cfg = s.cfg := rfl
@[simp] theorem State.setMem_inputs (s : State) (m : Memory) : (s.setMem m).inputs = s.inputs := rfl
@[simp] theorem State.setMem_op (s : State) (m : Memory) : (s.setMem m).op = s.op := rfl
@[simp] theorem State.setMem_a0 (s : State) (m : Memory) : (s.setMem m).a0 = s.a0 := rfl
@[simp] theorem State.setMem_a1 (s : State) (m : Memory) : (s.setMem m).a1 = s.a1 := rfl
@[simp] theorem State.setMem_a2 (s : State) (m : Memory) : (s.setMem m).a2 = s.a2 := rfl
@[simp] theorem State.setMem_a3 (s : State) (m : Memory) : (s.setMem m).a3 = s.a3 := rfl
@[simp] theorem State.setMem_y0 (s : State) (m : Memory) : (s.setMem m).y0 = s.y0 := rfl
@[simp] theorem State.setMem_y1 (s : State) (m : Memory) : (s.setMem m).y1 = s.y1 := rfl
@[simp] theorem State.setMem_ok (s : State) (m : Memory) : (s.setMem m).ok = s.ok := rfl
@[simp] theorem State.setMem_ph (s : State) (m : Memory) : (s.setMem m).ph = s.ph := rfl
@[simp] theorem State.setMem_bound (s : State) (m : Memory) : (s.setMem m).bound = s.bound := rfl
@[simp] theorem State.setMem_curDir (s : State) (m : Memory) : (s.setMem m).curDir = s.curDir := rfl
@[simp] theorem State.setMem_invPending (s : State) (m : Memory) : (s.setMem m).invPending = s.invPending := rfl
@[simp] theorem State.setMem_invAddr (s : State) (m : Memory) : (s.setMem m).invAddr = s.invAddr := rfl
@[simp] theorem State.setMem_gdt (s : State) (m : Memory) : (s.setMem m).gdt = s.gdt := rfl
@[simp] theorem State.setMem_gdtr (s : State) (m : Memory) : (s.setMem m).gdtr = s.gdtr := rfl
@[simp] theorem State.setMem_segs (s : State) (m : Memory) : (s.setMem m).segs = s.segs := rfl
@[simp] theorem State.setMem_cr3 (s : State) (m : Memory) : (s.setMem m).cr3 = s.cr3 := rfl
@[simp] theorem State.setMem_mem (s : State) (m : Memory) : (s.setMem m).mem = m := rfl
@[simp] theorem State.setMem_tlb (s : State) (m : Memory) : (s.setMem m).tlb = s.tlb := rfl
@[simp] theorem State.setMem_cpuTick (s : State) (m : Memory) : (s.setMem m).cpuTick = s.cpuTick := rfl
@[simp] theorem State.setMem_ret (s : State) (m : Memory) : (s.setMem m).ret = s.ret := rfl

@[simp] theorem State.setTlb_cfg (s : State) (t : Tlb) (n : Nat) : (s.setTlb t n).cfg = s.cfg := rfl
@[simp] theorem State.setTlb_inputs (s : State) (t : Tlb) (n : Nat) : (s.setTlb t n).inputs = s.inputs := rfl
@[simp] theorem State.setTlb_op (s : State) (t : Tlb) (n : Nat) : (s.setTlb t n).op = s.op := rfl
@[simp] theorem State.setTlb_a0 (s : State) (t : Tlb) (n : Nat) : (s.setTlb t n).a0 = s.a0 := rfl
@[simp] theorem State.setTlb_a1 (s : State) (t : Tlb) (n : Nat) : (s.setTlb t n).a1 = s.a1 := rfl
@[simp] theorem State.setTlb_a2 (s : State) (t : Tlb) (n : Nat) : (s.setTlb t n).a2 = s.a2 := rfl
@[simp] theorem State.setTlb_a3 (s : State) (t : Tlb) (n : Nat) : (s.setTlb t n).a3 = s.a3 := rfl
@[simp] theorem State.setTlb_y0 (s : State) (t : Tlb) (n : Nat) : (s.setTlb t n).y0 = s.y0 := rfl
@[simp] theorem State.setTlb_y1 (s : State) (t : Tlb) (n : Nat) : (s.setTlb t n).y1 = s.y1 := rfl
@[simp] theorem State.setTlb_ok (s : State) (t : Tlb) (n : Nat) : (s.setTlb t n).ok = s.ok := rfl
@[simp] theorem State.setTlb_ph (s : State) (t : Tlb) (n : Nat) : (s.setTlb t n).ph = s.ph := rfl
@[simp] theorem State.setTlb_bound (s : State) (t : Tlb) (n : Nat) : (s.setTlb t n).bound = s.bound := rfl
@[simp] theorem State.setTlb_curDir (s : State) (t : Tlb) (n : Nat) : (s.setTlb t n).curDir = s.curDir := rfl
@[simp] theorem State.setTlb_invPending (s : State) (t : Tlb) (n : Nat) : (s.setTlb t n).invPending = s.invPending := rfl
@[simp] theorem State.setTlb_invAddr (s : State) (t : Tlb) (n : Nat) : (s.setTlb t n).invAddr = s.invAddr := rfl
@[simp] theorem State.setTlb_gdt (s : State) (t : Tlb) (n : Nat) : (s.setTlb t n).gdt = s.gdt := rfl
@[simp] theorem State.setTlb_gdtr (s : State) (t : Tlb) (n : Nat) : (s.setTlb t n).gdtr = s.gdtr := rfl
@[simp] theorem State.setTlb_segs (s : State) (t : Tlb) (n : Nat) : (s.setTlb t n).segs = s.segs := rfl
@[simp] theorem State.setTlb_cr3 (s : State) (t : Tlb) (n : Nat) : (s.setTlb t n).cr3 = s.cr3 := rfl
@[simp] theorem State.setTlb_mem (s : State) (t : Tlb) (n : Nat) : (s.setTlb t n).mem = s.mem := rfl
@[simp] theorem State.setTlb_tlb (s : State) (t : Tlb) (n : Nat) : (s.setTlb t n).tlb = t := rfl
@[simp] theorem State.setTlb_cpuTick (s : State) (t : Tlb) (n : Nat) : (s.setTlb t n).cpuTick = n := rfl
@[simp] theorem State.setTlb_ret (s : State) (t : Tlb) (n : Nat) : (s.setTlb t n).ret = s.ret := rfl

@[simp] theorem State.setRet_cfg (s : State) (v : Word) : (s.setRet v).cfg = s.cfg := rfl
@[simp] theorem State.setRet_inputs (s : State) (v : Word) : (s.setRet v).inputs = s.inputs := rfl
@[simp] theorem State.setRet_op (s : State) (v : Word) : (s.setRet v).op = s.op := rfl
@[simp] theorem State.setRet_a0 (s : State) (v : Word) : (s.setRet v).a0 = s.a0 := rfl
@[simp] theorem State.setRet_a1 (s : State) (v : Word) : (s.setRet v).a1 = s.a1 := rfl
@[simp] theorem State.setRet_a2 (s : State) (v : Word) : (s.setRet v).a2 = s.a2 := rfl
@[simp] theorem State.setRet_a3 (s : State) (v : Word) : (s.setRet v).a3 = s.a3 := rfl
@[simp] theorem State.setRet_y0 (s : State) (v : Word) : (s.setRet v).y0 = s.y0 := rfl
@[simp] theorem State.setRet_y1 (s : State) (v : Word) : (s.setRet v).y1 = s.y1 := rfl
@[simp] theorem State.setRet_ok (s : State) (v : Word) : (s.setRet v).ok = s.ok := rfl
@[simp] theorem State.setRet_ph (s : State) (v : Word) : (s.setRet v).ph = s.ph := rfl
@[simp] theorem State.setRet_bound (s : State) (v : Word) : (s.setRet v).bound = s.bound := rfl
@[simp] theorem State.setRet_curDir (s : State) (v : Word) : (s.setRet v).curDir = s.curDir := rfl
@[simp] theorem State.setRet_invPending (s : State) (v : Word) : (s.setRet v).invPending = s.invPending := rfl
@[simp] theorem State.setRet_invAddr (s : State) (v : Word) : (s.setRet v).invAddr = s.invAddr := rfl
@[simp] theorem State.setRet_gdt (s : State) (v : Word) : (s.setRet v).gdt = s.gdt := rfl
@[simp] theorem State.setRet_gdtr (s : State) (v : Word) : (s.setRet v).gdtr = s.gdtr := rfl
@[simp] theorem State.setRet_segs (s : State) (v : Word) : (s.setRet v).segs = s.segs := rfl
@[simp] theorem State.setRet_cr3 (s : State) (v : Word) : (s.setRet v).cr3 = s.cr3 := rfl
@[simp] theorem State.setRet_mem (s : State) (v : Word) : (s.setRet v).mem = s.mem := rfl
@[simp] theorem State.setRet_tlb (s : State) (v : Word) : (s.setRet v).tlb = s.tlb := rfl
@[simp] theorem State.setRet_cpuTick (s : State) (v : Word) : (s.setRet v).cpuTick = s.cpuTick := rfl
@[simp] theorem State.setRet_ret (s : State) (v : Word) : (s.setRet v).ret = v := rfl

@[simp] theorem State.setPort_cfg (s : State) (p : OperandPort) (v : Word) : (s.setPort p v).cfg = s.cfg := by cases p <;> rfl
@[simp] theorem State.setPort_inputs (s : State) (p : OperandPort) (v : Word) : (s.setPort p v).inputs = s.inputs := by cases p <;> rfl
@[simp] theorem State.setPort_op (s : State) (p : OperandPort) (v : Word) : (s.setPort p v).op = s.op := by cases p <;> rfl
@[simp] theorem State.setPort_y0 (s : State) (p : OperandPort) (v : Word) : (s.setPort p v).y0 = s.y0 := by cases p <;> rfl
@[simp] theorem State.setPort_y1 (s : State) (p : OperandPort) (v : Word) : (s.setPort p v).y1 = s.y1 := by cases p <;> rfl
@[simp] theorem State.setPort_ok (s : State) (p : OperandPort) (v : Word) : (s.setPort p v).ok = s.ok := by cases p <;> rfl
@[simp] theorem State.setPort_ph (s : State) (p : OperandPort) (v : Word) : (s.setPort p v).ph = s.ph := by cases p <;> rfl
@[simp] theorem State.setPort_bound (s : State) (p : OperandPort) (v : Word) : (s.setPort p v).bound = s.bound := by cases p <;> rfl
@[simp] theorem State.setPort_curDir (s : State) (p : OperandPort) (v : Word) : (s.setPort p v).curDir = s.curDir := by cases p <;> rfl
@[simp] theorem State.setPort_invPending (s : State) (p : OperandPort) (v : Word) : (s.setPort p v).invPending = s.invPending := by cases p <;> rfl
@[simp] theorem State.setPort_invAddr (s : State) (p : OperandPort) (v : Word) : (s.setPort p v).invAddr = s.invAddr := by cases p <;> rfl
@[simp] theorem State.setPort_gdt (s : State) (p : OperandPort) (v : Word) : (s.setPort p v).gdt = s.gdt := by cases p <;> rfl
@[simp] theorem State.setPort_gdtr (s : State) (p : OperandPort) (v : Word) : (s.setPort p v).gdtr = s.gdtr := by cases p <;> rfl
@[simp] theorem State.setPort_segs (s : State) (p : OperandPort) (v : Word) : (s.setPort p v).segs = s.segs := by cases p <;> rfl
@[simp] theorem State.setPort_cr3 (s : State) (p : OperandPort) (v : Word) : (s.setPort p v).cr3 = s.cr3 := by cases p <;> rfl
@[simp] theorem State.setPort_mem (s : State) (p : OperandPort) (v : Word) : (s.setPort p v).mem = s.mem := by cases p <;> rfl
@[simp] theorem State.setPort_tlb (s : State) (p : OperandPort) (v : Word) : (s.setPort p v).tlb = s.tlb := by cases p <;> rfl
@[simp] theorem State.setPort_cpuTick (s : State) (p : OperandPort) (v : Word) : (s.setPort p v).cpuTick = s.cpuTick := by cases p <;> rfl
@[simp] theorem State.setPort_ret (s : State) (p : OperandPort) (v : Word) : (s.setPort p v).ret = s.ret := by cases p <;> rfl
@[simp] theorem State.setPort_a0 (s : State) (p : OperandPort) (v : Word) : (s.setPort p v).a0 = if p = .a0 then v else s.a0 := by cases p <;> rfl
@[simp] theorem State.setPort_a1 (s : State) (p : OperandPort) (v : Word) : (s.setPort p v).a1 = if p = .a1 then v else s.a1 := by cases p <;> rfl
@[simp] theorem State.setPort_a2 (s : State) (p : OperandPort) (v : Word) : (s.setPort p v).a2 = if p = .a2 then v else s.a2 := by cases p <;> rfl
@[simp] theorem State.setPort_a3 (s : State) (p : OperandPort) (v : Word) : (s.setPort p v).a3 = if p = .a3 then v else s.a3 := by cases p <;> rfl

@[simp] theorem cpuTurn_cfg (s : State) : (cpuTurn s).cfg = s.cfg := rfl
@[simp] theorem cpuTurn_inputs (s : State) : (cpuTurn s).inputs = s.inputs := rfl
@[simp] theorem cpuTurn_op (s : State) : (cpuTurn s).op = s.op := rfl
@[simp] theorem cpuTurn_a0 (s : State) : (cpuTurn s).a0 = s.a0 := rfl
@[simp] theorem cpuTurn_a1 (s : State) : (cpuTurn s).a1 = s.a1 := rfl
@[simp] theorem cpuTurn_a2 (s : State) : (cpuTurn s).a2 = s.a2 := rfl
@[simp] theorem cpuTurn_a3 (s : State) : (cpuTurn s).a3 = s.a3 := rfl
@[simp] theorem cpuTurn_y0 (s : State) : (cpuTurn s).y0 = s.y0 := rfl
@[simp] theorem cpuTurn_y1 (s : State) : (cpuTurn s).y1 = s.y1 := rfl
@[simp] theorem cpuTurn_ok (s : State) : (cpuTurn s).ok = s.ok := rfl
@[simp] theorem cpuTurn_ph (s : State) : (cpuTurn s).ph = s.ph := rfl
@[simp] theorem cpuTurn_bound (s : State) : (cpuTurn s).bound = s.bound := rfl
@[simp] theorem cpuTurn_curDir (s : State) : (cpuTurn s).curDir = s.curDir := rfl
@[simp] theorem cpuTurn_invPending (s : State) : (cpuTurn s).invPending = s.invPending := rfl
@[simp] theorem cpuTurn_invAddr (s : State) : (cpuTurn s).invAddr = s.invAddr := rfl
@[simp] theorem cpuTurn_gdt (s : State) : (cpuTurn s).gdt = s.gdt := rfl
@[simp] theorem cpuTurn_gdtr (s : State) : (cpuTurn s).gdtr = s.gdtr := rfl
@[simp] theorem cpuTurn_segs (s : State) : (cpuTurn s).segs = s.segs := rfl
@[simp] theorem cpuTurn_cr3 (s : State) : (cpuTurn s).cr3 = s.cr3 := rfl
@[simp] theorem cpuTurn_mem (s : State) : (cpuTurn s).mem = s.mem := rfl
@[simp] theorem cpuTurn_ret (s : State) : (cpuTurn s).ret = s.ret := rfl
@[simp] theorem cpuTurn_tlb (s : State) : (cpuTurn s).tlb = tlbActs s s.tlb (Config.cpuActs s.cpuTick) := rfl
@[simp] theorem cpuTurn_cpuTick (s : State) : (cpuTurn s).cpuTick = s.cpuTick + 1 := rfl

@[simp] theorem invalidatePage_cfg (s : State) (v : Word) : (invalidatePage s v).cfg = s.cfg := rfl
@[simp] theorem invalidatePage_inputs (s : State) (v : Word) : (invalidatePage s v).inputs = s.inputs := rfl
@[simp] theorem invalidatePage_op (s : State) (v : Word) : (invalidatePage s v).op = s.op := rfl
@[simp] theorem invalidatePage_a0 (s : State) (v : Word) : (invalidatePage s v).a0 = s.a0 := rfl
@[simp] theorem invalidatePage_a1 (s : State) (v : Word) : (invalidatePage s v).a1 = s.a1 := rfl
@[simp] theorem invalidatePage_a2 (s : State) (v : Word) : (invalidatePage s v).a2 = s.a2 := rfl
@[simp] theorem invalidatePage_a3 (s : State) (v : Word) : (invalidatePage s v).a3 = s.a3 := rfl
@[simp] theorem invalidatePage_y0 (s : State) (v : Word) : (invalidatePage s v).y0 = s.y0 := rfl
@[simp] theorem invalidatePage_y1 (s : State) (v : Word) : (invalidatePage s v).y1 = s.y1 := rfl
@[simp] theorem invalidatePage_ok (s : State) (v : Word) : (invalidatePage s v).ok = s.ok := rfl
@[simp] theorem invalidatePage_ph (s : State) (v : Word) : (invalidatePage s v).ph = s.ph := rfl
@[simp] theorem invalidatePage_bound (s : State) (v : Word) : (invalidatePage s v).bound = s.bound := rfl
@[simp] theorem invalidatePage_curDir (s : State) (v : Word) : (invalidatePage s v).curDir = s.curDir := rfl
@[simp] theorem invalidatePage_invPending (s : State) (v : Word) : (invalidatePage s v).invPending = s.invPending := rfl
@[simp] theorem invalidatePage_invAddr (s : State) (v : Word) : (invalidatePage s v).invAddr = s.invAddr := rfl
@[simp] theorem invalidatePage_gdt (s : State) (v : Word) : (invalidatePage s v).gdt = s.gdt := rfl
@[simp] theorem invalidatePage_gdtr (s : State) (v : Word) : (invalidatePage s v).gdtr = s.gdtr := rfl
@[simp] theorem invalidatePage_segs (s : State) (v : Word) : (invalidatePage s v).segs = s.segs := rfl
@[simp] theorem invalidatePage_cr3 (s : State) (v : Word) : (invalidatePage s v).cr3 = s.cr3 := rfl
@[simp] theorem invalidatePage_mem (s : State) (v : Word) : (invalidatePage s v).mem = s.mem := rfl
@[simp] theorem invalidatePage_cpuTick (s : State) (v : Word) : (invalidatePage s v).cpuTick = s.cpuTick := rfl
@[simp] theorem invalidatePage_ret (s : State) (v : Word) : (invalidatePage s v).ret = s.ret := rfl
@[simp] theorem invalidatePage_tlb (s : State) (v : Word) : (invalidatePage s v).tlb = Store.del s.tlb (vpnOf v).toNat := rfl

@[simp] theorem flushTlb_cfg (s : State) : (flushTlb s).cfg = s.cfg := rfl
@[simp] theorem flushTlb_inputs (s : State) : (flushTlb s).inputs = s.inputs := rfl
@[simp] theorem flushTlb_op (s : State) : (flushTlb s).op = s.op := rfl
@[simp] theorem flushTlb_a0 (s : State) : (flushTlb s).a0 = s.a0 := rfl
@[simp] theorem flushTlb_a1 (s : State) : (flushTlb s).a1 = s.a1 := rfl
@[simp] theorem flushTlb_a2 (s : State) : (flushTlb s).a2 = s.a2 := rfl
@[simp] theorem flushTlb_a3 (s : State) : (flushTlb s).a3 = s.a3 := rfl
@[simp] theorem flushTlb_y0 (s : State) : (flushTlb s).y0 = s.y0 := rfl
@[simp] theorem flushTlb_y1 (s : State) : (flushTlb s).y1 = s.y1 := rfl
@[simp] theorem flushTlb_ok (s : State) : (flushTlb s).ok = s.ok := rfl
@[simp] theorem flushTlb_ph (s : State) : (flushTlb s).ph = s.ph := rfl
@[simp] theorem flushTlb_bound (s : State) : (flushTlb s).bound = s.bound := rfl
@[simp] theorem flushTlb_curDir (s : State) : (flushTlb s).curDir = s.curDir := rfl
@[simp] theorem flushTlb_invPending (s : State) : (flushTlb s).invPending = s.invPending := rfl
@[simp] theorem flushTlb_invAddr (s : State) : (flushTlb s).invAddr = s.invAddr := rfl
@[simp] theorem flushTlb_gdt (s : State) : (flushTlb s).gdt = s.gdt := rfl
@[simp] theorem flushTlb_gdtr (s : State) : (flushTlb s).gdtr = s.gdtr := rfl
@[simp] theorem flushTlb_segs (s : State) : (flushTlb s).segs = s.segs := rfl
@[simp] theorem flushTlb_cr3 (s : State) : (flushTlb s).cr3 = s.cr3 := rfl
@[simp] theorem flushTlb_mem (s : State) : (flushTlb s).mem = s.mem := rfl
@[simp] theorem flushTlb_ret (s : State) : (flushTlb s).ret = s.ret := rfl
@[simp] theorem flushTlb_tlb (s : State) :
    (flushTlb s).tlb = Store.keep (fun n e => tlbGlobal e && Config.keepsGlobal s.cpuTick n) s.tlb := rfl
@[simp] theorem flushTlb_cpuTick (s : State) : (flushTlb s).cpuTick = s.cpuTick + 1 := rfl

/-! The named result forms are the named updates. -/

@[simp] theorem resultNone_eq (s : State) : resultNone s = s.setResults none none none := rfl
@[simp] theorem resultWord_eq (s : State) (y0 : Word) : resultWord s y0 = s.setResults (some y0) none none := rfl
@[simp] theorem resultEntry_eq (s : State) (frame : Word) (fl : FlagsRecord) :
    resultEntry s frame fl = s.setResults (some frame) (some (fl.setWidth 32)) none := rfl
@[simp] theorem resultDescriptor_eq (s : State) (d : Descriptor) :
    resultDescriptor s d = s.setResults (some (d.extractLsb' 0 32)) (some (d.extractLsb' 32 32)) none := rfl
@[simp] theorem failOp_eq (s : State) : failOp s = (s.setResults none none (some false)).setPhase .idle := rfl
@[simp] theorem succeedOp_eq (s : State) : succeedOp s = (s.setResults none none (some true)).setPhase .idle := rfl
@[simp] theorem succeedWith_eq (s : State) (y0 : Word) :
    succeedWith s y0 = (s.setResults (some y0) none (some true)).setPhase .idle := rfl
@[simp] theorem loadGdtr_eq (s : State) (limit : Half) (base : Word) : loadGdtr s limit base = s.setGdtr limit base := rfl

end Sys2Proof.Machine
end

