-- ==== Sys2Proof/Laws/Store.lean ====
section
/-! SUPPORT. The laws of sparse stores: read after write, and that every operation keeps the canonical form. -/

namespace Sys2Proof.Machine

open Sys2Proof

variable {α : Type}

@[simp] theorem Store.get_put_self (m : Store α) (a : Nat) (v : α) : Store.get (Store.put m a v) a = some v := by
  induction m with
  | nil => simp [Store.put, Store.get]
  | cons e r ih =>
    obtain ⟨k, w⟩ := e
    simp only [Store.put]
    split
    · simp [Store.get]
    · split
      · simp [Store.get]
      · rename_i h1 h2
        have : k ≠ a := fun h => h2 h.symm
        simp [Store.get, this, ih]

theorem Store.get_put_ne (m : Store α) {a b : Nat} (v : α) (h : a ≠ b) : Store.get (Store.put m a v) b = Store.get m b := by
  induction m with
  | nil => simp [Store.put, Store.get, h]
  | cons e r ih =>
    obtain ⟨k, w⟩ := e
    simp only [Store.put]
    split
    · simp [Store.get, h]
    · split
      · rename_i h1 h2
        subst h2
        simp [Store.get, h]
      · simp only [Store.get, ih]

/-- Reading one key after writing another or the same. -/
theorem Store.get_put (m : Store α) (a b : Nat) (v : α) :
    Store.get (Store.put m a v) b = if a = b then some v else Store.get m b := by
  by_cases h : a = b
  · subst h; simp
  · simp [h, Store.get_put_ne m v h]

theorem Store.get_keep_of_rising (p : Nat → α → Bool) (bound : Nat) (m : Store α) (low n : Nat)
    (h : Store.rising bound low m = true) :
    Store.get (Store.keep p m) n = (Store.get m n).filter (p n) := by
  have below : ∀ (r : Store α) (l : Nat), Store.rising bound l r = true → ∀ k, k < l → Store.get r k = none := by
    intro r
    induction r with
    | nil => intros; rfl
    | cons e r ih =>
      obtain ⟨k', w⟩ := e
      intro l hr k hk
      simp only [Store.rising, Bool.and_eq_true, decide_eq_true_eq] at hr
      have hne : k' ≠ k := by omega
      simp only [Store.get, hne, if_false]
      exact ih (k' + 1) hr.2 k (by omega)
  induction m generalizing low with
  | nil => rfl
  | cons e r ih =>
    obtain ⟨k, w⟩ := e
    simp only [Store.rising, Bool.and_eq_true, decide_eq_true_eq] at h
    have hr := ih (k + 1) h.2
    simp only [Store.keep]
    by_cases hk : k = n
    · subst hk
      by_cases hp : p k w = true
      · simp [hp, Store.get, Option.filter]
      · have : Store.get r k = none := below r (k + 1) h.2 k (by omega)
        simp [hp, hr, this, Store.get, Option.filter]
    · by_cases hp : p k w = true
      · simp [hp, Store.get, hk, hr]
      · simp [hp, Store.get, hk, hr]

@[simp] theorem Store.get_del_self (m : Store α) (a : Nat) : Store.get (Store.del m a) a = none := by
  unfold Store.del
  induction m with
  | nil => rfl
  | cons e r ih =>
    obtain ⟨k, w⟩ := e
    simp only [Store.keep]
    by_cases hk : k = a
    · simpa [hk] using ih
    · simpa [hk, Store.get] using ih

theorem Store.get_del_ne (m : Store α) {a b : Nat} (h : a ≠ b) : Store.get (Store.del m a) b = Store.get m b := by
  unfold Store.del
  induction m with
  | nil => rfl
  | cons e r ih =>
    obtain ⟨k, w⟩ := e
    simp only [Store.keep]
    by_cases hk : k = a
    · subst hk
      simpa [Store.get, h] using ih
    · simp only [ne_eq, hk, not_false_eq_true, decide_true, if_true, Store.get]
      split
      · rfl
      · simpa using ih

theorem Store.rising_mono (bound : Nat) (m : Store α) {l l' : Nat} (hl : l ≤ l') (h : Store.rising bound l' m = true) :
    Store.rising bound l m = true := by
  cases m with
  | nil => rfl
  | cons e r =>
    simp only [Store.rising, Bool.and_eq_true, decide_eq_true_eq] at h ⊢
    exact ⟨⟨by omega, h.1.2⟩, h.2⟩

theorem Store.rising_put (bound : Nat) (m : Store α) (low a : Nat) (v : α) (h : Store.rising bound low m = true)
    (hl : low ≤ a) (ha : a < bound) : Store.rising bound low (Store.put m a v) = true := by
  induction m generalizing low with
  | nil => simp [Store.put, Store.rising, hl, ha]
  | cons e r ih =>
    obtain ⟨k, w⟩ := e
    simp only [Store.rising, Bool.and_eq_true, decide_eq_true_eq] at h
    simp only [Store.put]
    split
    · rename_i h1
      simp only [Store.rising, Bool.and_eq_true, decide_eq_true_eq]
      exact ⟨⟨hl, ha⟩, ⟨by omega, h.1.2⟩, h.2⟩
    · split
      · rename_i h1 h2
        subst h2
        simp only [Store.rising, Bool.and_eq_true, decide_eq_true_eq]
        exact ⟨h.1, h.2⟩
      · rename_i h1 h2
        simp only [Store.rising, Bool.and_eq_true, decide_eq_true_eq]
        exact ⟨h.1, ih (k + 1) h.2 (by omega)⟩

theorem Store.rising_keep (bound : Nat) (p : Nat → α → Bool) (m : Store α) (low : Nat)
    (h : Store.rising bound low m = true) : Store.rising bound low (Store.keep p m) = true := by
  induction m generalizing low with
  | nil => rfl
  | cons e r ih =>
    obtain ⟨k, w⟩ := e
    simp only [Store.rising, Bool.and_eq_true, decide_eq_true_eq] at h
    have hr := ih (k + 1) h.2
    simp only [Store.keep]
    split
    · simp only [Store.rising, Bool.and_eq_true, decide_eq_true_eq]
      exact ⟨h.1, hr⟩
    · exact Store.rising_mono bound _ (by omega) hr

theorem Store.rising_del (bound : Nat) (m : Store α) (low a : Nat) (h : Store.rising bound low m = true) :
    Store.rising bound low (Store.del m a) = true := Store.rising_keep bound _ m low h

theorem Store.rising_ofList (bound : Nat) (l : List (Nat × α)) (h : ∀ e ∈ l, e.1 < bound) :
    Store.rising bound 0 (Store.ofList l) = true := by
  induction l with
  | nil => rfl
  | cons e r ih =>
    obtain ⟨k, v⟩ := e
    exact Store.rising_put bound _ 0 k v (ih fun e he => h e (by simp [he])) (by omega) (h (k, v) (by simp))

end Sys2Proof.Machine
end

