-- ==== Sys2Proof/Laws/Memory.lean ====
section
/-! SUPPORT. The laws of physical memory (spec 20_memory.md R44, R45): read after write, frame, canonical form, and what
each memory operation can answer. -/

namespace Sys2Proof.Machine

open Sys2Proof

/-- A byte after a word write: a byte of the written word, or the old byte. -/
theorem get_putWord_of_outside (m : Memory) (pa v : Word) (b : Nat) (h : b < pa.toNat ∨ pa.toNat + 3 < b) :
    Store.get (putWord m pa v) b = Store.get m b := by
  simp only [putWord, Store.get_put]
  have h0 : pa.toNat ≠ b := by omega
  have h1 : pa.toNat + 1 ≠ b := by omega
  have h2 : pa.toNat + 2 ≠ b := by omega
  have h3 : pa.toNat + 3 ≠ b := by omega
  simp [h0, h1, h2, h3]

theorem bytes_append (v : Word) :
    (v.extractLsb' 24 8 ++ v.extractLsb' 16 8 ++ v.extractLsb' 8 8 ++ v.extractLsb' 0 8 : Word) = v := by
  apply BitVec.eq_of_getLsbD_eq
  intro i hi
  simp only [BitVec.getLsbD_append, BitVec.getLsbD_extractLsb']
  interval_cases i <;> simp

/-- Read after write, the same word. -/
@[simp] theorem wordAt_putWord_self (m : Memory) (pa v : Word) : wordAt (putWord m pa v) pa = some v := by
  simp only [wordAt, putWord, Store.get_put]
  simp [bytes_append]

/-- Read after write, another aligned word. -/
theorem wordAt_putWord_ne (m : Memory) (pa pb v : Word) (ha : pa.toNat % 4 = 0) (hb : pb.toNat % 4 = 0) (h : pa ≠ pb) :
    wordAt (putWord m pa v) pb = wordAt m pb := by
  have hne : pa.toNat ≠ pb.toNat := fun e => h (BitVec.eq_of_toNat_eq e)
  have far : ∀ k, k < 4 → pb.toNat + k < pa.toNat ∨ pa.toNat + 3 < pb.toNat + k := by intro k hk; omega
  simp only [wordAt, get_putWord_of_outside m pa v pb.toNat (by simpa using far 0 (by omega)),
    get_putWord_of_outside m pa v _ (far 1 (by omega)), get_putWord_of_outside m pa v _ (far 2 (by omega)),
    get_putWord_of_outside m pa v _ (far 3 (by omega))]

theorem put_keeps_wf (m : Memory) (a : Nat) (v : Byte) (h : Memory.wf m = true) (ha : a < 2 ^ 32) :
    Memory.wf (Store.put m a v) = true := Store.rising_put _ m 0 a v h (by omega) ha

/-- A word write keeps the canonical form. -/
theorem putWord_keeps_wf (m : Memory) (pa v : Word) (h : Memory.wf m = true) (ha : pa.toNat % 4 = 0) :
    Memory.wf (putWord m pa v) = true := by
  have := pa.isLt
  exact put_keeps_wf _ _ _ (put_keeps_wf _ _ _ (put_keeps_wf _ _ _ (put_keeps_wf _ _ _ h (by omega)) (by omega))
    (by omega)) (by omega)

theorem reset_mem_wf : Memory.wf State.reset.mem = true := rfl

theorem reset_tlb_wf : Tlb.wf State.reset.tlb = true := by
  apply Store.rising_ofList
  intro e he
  simp only [List.mem_map] at he
  obtain ⟨x, -, rfl⟩ := he
  exact x.1.isLt

/-- `andThen` answers a next state exactly when both parts do. -/
@[simp] theorem andThen_eq_next {α β : Type} (r : Res α) (f : α → Res β) (b : β) :
    andThen r f = .next b ↔ ∃ a, r = .next a ∧ f a = .next b := by
  cases r <;> simp [andThen]

@[simp] theorem andThen_next {α β : Type} (a : α) (f : α → Res β) : andThen (.next a) f = f a := rfl

@[simp] theorem andThen_fault {α β : Type} (e : Fault) (f : α → Res β) : andThen (.fault e) f = .fault e := rfl

@[simp] theorem andThen_refused {α β : Type} (e : Refusal) (f : α → Res β) : andThen (.refused e) f = .refused e := rfl

/-- When `MemRead` answers a value (R44). -/
@[simp] theorem readWord_eq_next (s : State) (pa w : Word) :
    readWord s pa = .next w ↔ isBacked s.cfg pa = true ∧ wordAt s.mem pa = some w := by
  unfold readWord
  split
  · rename_i h
    cases hw : wordAt s.mem pa <;> simp [h]
  · rename_i h
    simp [h]

/-- When `MemWrite` answers, and what it changes (R45). -/
@[simp] theorem writeWord_eq_next (s t : State) (pa v : Word) :
    writeWord s pa v = .next t ↔ isBacked s.cfg pa = true ∧ t = s.setMem (putWord s.mem pa v) := by
  unfold writeWord
  split <;> rename_i h <;> simp [h, eq_comm]

/-- A read depends on the parameters and on memory alone. -/
theorem readWord_congr {s t : State} (hc : t.cfg = s.cfg) (hm : t.mem = s.mem) (pa : Word) : readWord t pa = readWord s pa := by
  simp [readWord, hc, hm]

end Sys2Proof.Machine
end

