-- ==== Sys2Proof/Laws/Tlb.lean ====
section
/-! SUPPORT. The laws of the TLB and of the CPU's turn (spec 10_state.md R23): what it reads, that it keeps the canonical
form, and that what it fills comes from the tables now in memory. -/

namespace Sys2Proof.Machine

open Sys2Proof

/-- What the CPU may cache depends on the parameters, memory and CR3 alone. -/
theorem cpuFillEntry_congr {s t : State} (hc : t.cfg = s.cfg) (hm : t.mem = s.mem) (hr : t.cr3 = s.cr3) (n : PageNumber) :
    cpuFillEntry t n = cpuFillEntry s n := by
  simp only [cpuFillEntry, cpuDir, hr, readWord_congr hc hm]

theorem tlbAct_congr {s t : State} (hc : t.cfg = s.cfg) (hm : t.mem = s.mem) (hr : t.cr3 = s.cr3) (l : Tlb) (a : TlbAct) :
    tlbAct t l a = tlbAct s l a := by
  cases a <;> simp only [tlbAct, cpuFillEntry_congr hc hm hr]

theorem tlbActs_congr {s t : State} (hc : t.cfg = s.cfg) (hm : t.mem = s.mem) (hr : t.cr3 = s.cr3) (l : Tlb)
    (as : List TlbAct) : tlbActs t l as = tlbActs s l as := by
  induction as generalizing l with
  | nil => rfl
  | cons a r ih => simp only [tlbActs, tlbAct_congr hc hm hr, ih]

/-- The TLB after a CPU turn, in terms of any state with the same walk and of names for the TLB and the tick before it. -/
theorem cpuTurn_tlb_of {s t : State} {l : Tlb} {k : Nat} (hc : t.cfg = s.cfg) (hm : t.mem = s.mem) (hr : t.cr3 = s.cr3)
    (hl : t.tlb = l) (hk : t.cpuTick = k) : (cpuTurn t).tlb = tlbActs s l (Config.cpuActs k) := by
  rw [cpuTurn_tlb, hl, hk]; exact tlbActs_congr hc hm hr l _

/-- The same of the removal of one page's entry. -/
theorem invalidatePage_tlb_of {s : State} {v : Word} {l : Tlb} {n : Nat} (hl : s.tlb = l) (hn : v.toNat / 4096 = n) :
    (invalidatePage s v).tlb = Store.del l n := by
  rw [invalidatePage_tlb, hl, toNat_vpnOf, hn]

theorem tlbActs_append (s : State) (l : Tlb) (as bs : List TlbAct) :
    tlbActs s l (as ++ bs) = tlbActs s (tlbActs s l as) bs := by
  induction as generalizing l with
  | nil => rfl
  | cons a r ih => simp only [List.cons_append, tlbActs, ih]

theorem tlbAct_keeps_wf (s : State) (l : Tlb) (a : TlbAct) (h : Tlb.wf l = true) : Tlb.wf (tlbAct s l a) = true := by
  cases a with
  | fill n =>
    simp only [tlbAct]
    split
    · exact Store.rising_put _ l 0 _ _ h (by omega) n.isLt
    · exact h
  | drop n => exact Store.rising_del _ l 0 _ h

theorem tlbActs_keeps_wf (s : State) (l : Tlb) (as : List TlbAct) (h : Tlb.wf l = true) : Tlb.wf (tlbActs s l as) = true := by
  induction as generalizing l with
  | nil => exact h
  | cons a r ih => exact ih _ (tlbAct_keeps_wf s l a h)

/-- The CPU's turn keeps the canonical form. -/
theorem cpuTurn_keeps_tlb_wf (s : State) (h : Tlb.wf s.tlb = true) : Tlb.wf (cpuTurn s).tlb = true :=
  tlbActs_keeps_wf s s.tlb _ h

/-- The `G` of the PTE is the cached translation's (R84). -/
theorem cachedFlags_global (pde pte : Word) : (cachedFlags pde pte).getLsbD 8 = pteG pte := by
  simp [cachedFlags, entryFlags, pteG]

/-- After any fills and drops a page's entry is as before, gone, or what a walk gives. -/
theorem get_tlbActs (s : State) (n : PageNumber) (l : Tlb) (as : List TlbAct) :
    Store.get (tlbActs s l as) n.toNat = Store.get l n.toNat ∨ Store.get (tlbActs s l as) n.toNat = none
      ∨ Store.get (tlbActs s l as) n.toNat = cpuFillEntry s n := by
  induction as generalizing l with
  | nil => exact .inl rfl
  | cons a r ih =>
    have first : Store.get (tlbAct s l a) n.toNat = Store.get l n.toNat ∨ Store.get (tlbAct s l a) n.toNat = none
        ∨ Store.get (tlbAct s l a) n.toNat = cpuFillEntry s n := by
      cases a with
      | fill k =>
        simp only [tlbAct]
        split
        · rename_i e hk
          rw [Store.get_put]
          split
          · rename_i heq
            rw [← BitVec.eq_of_toNat_eq heq, hk]
            exact .inr (.inr rfl)
          · exact .inl rfl
        · exact .inl rfl
      | drop k =>
        simp only [tlbAct]
        by_cases heq : k.toNat = n.toNat
        · rw [heq, Store.get_del_self]; exact .inr (.inl rfl)
        · rw [Store.get_del_ne _ heq]; exact .inl rfl
    obtain h | h | h := ih (tlbAct s l a)
    · rw [tlbActs, h]; exact first
    · exact .inr (.inl h)
    · exact .inr (.inr h)

/-- If every entry for a page is what a walk now gives, that is still so after any fills and drops. -/
theorem tlbActs_fresh (s : State) (n : PageNumber) (l : Tlb) (as : List TlbAct)
    (h : ∀ e, Store.get l n.toNat = some e → cpuFillEntry s n = some e) :
    ∀ e, Store.get (tlbActs s l as) n.toNat = some e → cpuFillEntry s n = some e := by
  induction as generalizing l with
  | nil => exact h
  | cons a r ih =>
    apply ih
    intro e he
    cases a with
    | fill k =>
      simp only [tlbAct] at he
      split at he
      · rename_i e' hk
        rw [Store.get_put] at he
        split at he
        · rename_i heq
          have : k = n := BitVec.eq_of_toNat_eq heq
          subst this
          rw [hk]; exact he
        · exact h e he
      · exact h e he
    | drop k =>
      simp only [tlbAct] at he
      by_cases heq : k.toNat = n.toNat
      · rw [heq, Store.get_del_self] at he; exact absurd he (by simp)
      · rw [Store.get_del_ne _ heq] at he; exact h e he

end Sys2Proof.Machine
end

