-- ==== Sys2Proof/Laws/Phases.lean ====
section
/-! SUPPORT. The phase machine, said once (spec 44_paging_manager.md R182): what a run of phases is, and what every phase
leaves alone. -/

namespace Sys2Proof.Machine

open Sys2Proof

/-- A phase step is the phase's action and the CPU's turn. -/
theorem phaseStep_eq_next (s t : State) : phaseStep s = .next t ↔ ∃ u, phaseAction s = .next u ∧ t = cpuTurn u := by
  rw [phaseStep, andThen_eq_next]
  simp [eq_comm]

/-- A run of phases stands still in IDLE. -/
theorem runPhases_idle (n : Nat) (s : State) (h : s.ph = .idle) : runPhases n s = .next s := by
  cases n with
  | zero => rfl
  | succ n => simp [runPhases, h]

/-- A run of phases takes one phase at a time. -/
theorem runPhases_succ (n : Nat) (s : State) (h : s.ph ≠ .idle) : runPhases (n + 1) s = andThen (phaseStep s) (runPhases n) := by
  cases hp : s.ph <;> simp_all [runPhases]

/-- What no phase changes. -/
structure PhaseFrame (s t : State) : Prop where
  cfg : t.cfg = s.cfg
  inputs : t.inputs = s.inputs
  op : t.op = s.op
  a0 : t.a0 = s.a0
  a1 : t.a1 = s.a1
  a2 : t.a2 = s.a2
  a3 : t.a3 = s.a3
  bound : t.bound = s.bound
  curDir : t.curDir = s.curDir
  gdt : t.gdt = s.gdt
  cr3 : t.cr3 = s.cr3
  ret : t.ret = s.ret

theorem PhaseFrame.refl (s : State) : PhaseFrame s s := ⟨rfl, rfl, rfl, rfl, rfl, rfl, rfl, rfl, rfl, rfl, rfl, rfl⟩

theorem PhaseFrame.trans {s t u : State} (h : PhaseFrame s t) (k : PhaseFrame t u) : PhaseFrame s u :=
  ⟨k.cfg.trans h.cfg, k.inputs.trans h.inputs, k.op.trans h.op, k.a0.trans h.a0, k.a1.trans h.a1, k.a2.trans h.a2,
    k.a3.trans h.a3, k.bound.trans h.bound, k.curDir.trans h.curDir, k.gdt.trans h.gdt, k.cr3.trans h.cr3, k.ret.trans h.ret⟩

/-- No phase changes the parameters, the inputs, the operand ports, the binding, the GDT slots, CR3 or a primitive's returned value. -/
theorem phaseAction_frame {s t : State} (h : phaseAction s = .next t) : PhaseFrame s t := by
  unfold phaseAction at h
  cases hp : s.ph with
  | idle => simp [hp] at h; subst h; exact .refl s
  | check op =>
    simp only [hp, phaseCheck, failOp] at h
    split at h <;> simp at h <;> subst h <;> constructor <;> simp
  | rdPde op =>
    simp only [hp, phaseRdPde, andThen_eq_next] at h
    obtain ⟨pde, -, h⟩ := h
    split at h
    · cases op <;> simp at h <;> subst h <;> constructor <;> simp
    · simp [failOp] at h; subst h; constructor <;> simp
  | wrPde m pde =>
    simp only [hp, phaseWrPde, andThen_eq_next, writeWord_eq_next] at h
    obtain ⟨u, ⟨-, rfl⟩, h⟩ := h
    simp at h; subst h; constructor <;> simp
  | rdPte k v pde =>
    simp only [hp, phaseRdPte, andThen_eq_next] at h
    obtain ⟨pte, -, h⟩ := h
    split at h
    · cases k <;> simp [succeedWith, succeedOp] at h <;> subst h <;> constructor <;> simp
    · simp [failOp] at h; subst h; constructor <;> simp
  | wrPte v pde e =>
    simp only [hp, phaseWrPte, andThen_eq_next, writeWord_eq_next] at h
    obtain ⟨u, ⟨-, rfl⟩, h⟩ := h
    simp at h; subst h; constructor <;> simp
  | inval =>
    simp only [hp, phaseInval, succeedOp] at h
    split at h <;> simp at h
    subst h; constructor <;> simp
  | lgdt =>
    simp [hp, phaseLgdt, loadGdtr] at h; subst h; constructor <;> simp
  | reload =>
    simp only [hp, phaseReload, andThen_eq_next, reloadSegs] at h
    obtain ⟨u, hu, h⟩ := h
    split at hu <;> simp [raiseFatal] at hu
    simp at h hu; subst hu; subst h; constructor <;> simp

theorem phaseStep_frame {s t : State} (h : phaseStep s = .next t) : PhaseFrame s t := by
  obtain ⟨u, hu, rfl⟩ := (phaseStep_eq_next s t).1 h
  exact (phaseAction_frame hu).trans ⟨rfl, rfl, rfl, rfl, rfl, rfl, rfl, rfl, rfl, rfl, rfl, rfl⟩

/-- Nor does any run of phases. -/
theorem runPhases_frame (n : Nat) {s t : State} (h : runPhases n s = .next t) : PhaseFrame s t := by
  induction n generalizing s with
  | zero => simp [runPhases] at h; subst h; exact .refl s
  | succ n ih =>
    by_cases hp : s.ph = .idle
    · rw [runPhases_idle _ _ hp] at h; simp at h; subst h; exact .refl s
    · rw [runPhases_succ _ _ hp, andThen_eq_next] at h
      obtain ⟨u, hu, h⟩ := h
      exact (phaseStep_frame hu).trans (ih h)

/-- No turn, no change. -/
theorem OnlyCpuActs.of_tlb_eq {s t : State} (h : t.tlb = s.tlb) (hk : t.cpuTick = s.cpuTick) : OnlyCpuActs s t := ⟨0, hk, h⟩

/-- The CPU's turns compose. -/
theorem OnlyCpuActs.cpuTurn_of {s t : State} (h : OnlyCpuActs s t) (hc : t.cfg = s.cfg) (hm : t.mem = s.mem)
    (hr : t.cr3 = s.cr3) : OnlyCpuActs s (cpuTurn t) := by
  obtain ⟨n, hk, ha⟩ := h
  exact ⟨n + 1, by rw [cpuTurn_cpuTick, hk, Nat.add_assoc],
    by rw [cpuTurn_tlb, tlbActs_congr hc hm hr, ha, hk, turnActs, tlbActs_append]⟩

/-- The turn with which a step begins. -/
theorem OnlyCpuActs.turn (s : State) (rest : List Input) : OnlyCpuActs s (cpuTurn (s.setInputs rest)) :=
  (OnlyCpuActs.of_tlb_eq (s := s) (t := s.setInputs rest) rfl rfl).cpuTurn_of rfl rfl rfl

/-! A page's entry, through the CPU's turn and through the invalidation of another page. -/

theorem EntryKeptDroppedOrFilled.refl (s : State) (mems : List Memory) (n : PageNumber) :
    EntryKeptDroppedOrFilled s s mems n := .inl rfl

theorem EntryKeptDroppedOrFilled.cpuTurn_of {s t : State} {mems : List Memory} {n : PageNumber}
    (h : EntryKeptDroppedOrFilled s t mems n) (hc : t.cfg = s.cfg) (hm : t.mem ∈ mems) (hr : t.cr3 = s.cr3) :
    EntryKeptDroppedOrFilled s (cpuTurn t) mems n := by
  unfold EntryKeptDroppedOrFilled
  rw [cpuTurn_tlb]
  obtain hk | hk | hk := get_tlbActs t n t.tlb (Config.cpuActs t.cpuTick)
  · rw [hk]; exact h
  · exact .inr (.inl hk)
  · exact .inr (.inr ⟨t.mem, hm, by rw [hk]; exact cpuFillEntry_congr (s := { s with mem := t.mem }) hc rfl hr n⟩)

theorem EntryKeptDroppedOrFilled.invalidatePage_of {s t : State} {mems : List Memory} {n : PageNumber}
    (h : EntryKeptDroppedOrFilled s t mems n) {v : Word} (hn : n.toNat ≠ (vpnOf v).toNat) :
    EntryKeptDroppedOrFilled s (invalidatePage t v) mems n := by
  unfold EntryKeptDroppedOrFilled
  rw [invalidatePage_tlb, Store.get_del_ne _ (Ne.symm hn)]
  exact h

/-- After the invalidation of a page and a turn of the CPU, the page has no entry or the one a walk now gives. -/
theorem get_cpuTurn_invalidated (u : State) (n : PageNumber) (h : Store.get u.tlb n.toNat = none) :
    Store.get (cpuTurn u).tlb n.toNat = none ∨ Store.get (cpuTurn u).tlb n.toNat = cpuFillEntry (cpuTurn u) n := by
  rw [cpuTurn_tlb, cpuFillEntry_congr (s := u) (t := cpuTurn u) (by simp) (by simp) (by simp)]
  obtain hk | hk | hk := get_tlbActs u n u.tlb (Config.cpuActs u.cpuTick)
  · exact .inl (hk.trans h)
  · exact .inl hk
  · exact .inr hk

end Sys2Proof.Machine
end

