-- ==== Sys2Proof/Laws/Manager.lean ====
section
/-! SUPPORT. The Paging Manager's operations, said once (spec 44_paging_manager.md R181, R182): what each run of phases
answers, as the reads of `walk` and the updates that follow them. -/

namespace Sys2Proof.Machine

open Sys2Proof

/-! Reads and entry addresses see only the parameters, memory and the binding. -/

@[simp] theorem readWord_cpuTurn (s : State) (pa : Word) : readWord (cpuTurn s) pa = readWord s pa := rfl
@[simp] theorem readWord_setPhase (s : State) (p : Phase) (pa : Word) : readWord (s.setPhase p) pa = readWord s pa := rfl
@[simp] theorem readWord_setResults (s : State) (y0 y1 : Option Word) (ok : Option Bool) (pa : Word) :
    readWord (s.setResults y0 y1 ok) pa = readWord s pa := rfl
/-- A write where there is memory, of a state with the parameters and the memory of `s`. -/
theorem writeWord_backed {s t : State} (hc : t.cfg = s.cfg) (hm : t.mem = s.mem) {pa : Word} (v : Word)
    (h : isBacked s.cfg pa = true) : writeWord t pa v = .next (t.setMem (putWord s.mem pa v)) := by
  simp only [writeWord, hc, hm, h, if_true]

theorem writeWord_unbacked {s t : State} (hc : t.cfg = s.cfg) {pa : Word} (v : Word) (h : ¬ isBacked s.cfg pa = true) :
    writeWord t pa v = .refused .unbacked := by
  rw [writeWord, hc]
  exact if_neg h

@[simp] theorem pdeAddr_cpuTurn (s : State) (v : Word) : pdeAddr (cpuTurn s) v = pdeAddr s v := rfl
@[simp] theorem pdeAddr_setPhase (s : State) (p : Phase) (v : Word) : pdeAddr (s.setPhase p) v = pdeAddr s v := rfl
@[simp] theorem pdeAddr_setResults (s : State) (y0 y1 : Option Word) (ok : Option Bool) (v : Word) :
    pdeAddr (s.setResults y0 y1 ok) v = pdeAddr s v := rfl
@[simp] theorem pdeAddr_setMem (s : State) (m : Memory) (v : Word) : pdeAddr (s.setMem m) v = pdeAddr s v := rfl

theorem pdeAddr_congr {s t : State} (h : t.curDir = s.curDir) (v : Word) : pdeAddr t v = pdeAddr s v := by
  simp [pdeAddr, dirBase, h]

/-- The state in phase CHECK of an operation issued in `s`. -/
def atCheck (op : MgrOp) (s : State) : State := (resultNone s).setPhase (.check op)

/-- The state in phase RD_PDE. -/
def atRdPde (op : MgrOp) (s : State) : State := cpuTurn ((atCheck op s).setPhase (.rdPde op))

@[simp] theorem atCheck_eq (op : MgrOp) (s : State) : atCheck op s = (s.setResults none none none).setPhase (.check op) := rfl

@[simp] theorem atRdPde_eq (op : MgrOp) (s : State) :
    atRdPde op s = cpuTurn (((s.setResults none none none).setPhase (.check op)).setPhase (.rdPde op)) := rfl

/-- An unbound manager fails in CHECK. -/
theorem runManager_unbound (op : MgrOp) (s : State) (h : s.bound = false) :
    runManager op s = .next (cpuTurn (failOp (atCheck op s))) := by
  rw [runManager, runPhases_succ _ _ (by simp)]
  simp only [phaseStep, phaseAction, State.setPhase_ph, phaseCheck]
  rw [if_neg (by simp [h])]
  simp only [andThen_next]
  exact runPhases_idle _ _ (by simp)

/-- A bound manager reads the PDE (phases CHECK and RD_PDE). -/
theorem runManager_bound (op : MgrOp) (s : State) (h : s.bound = true) :
    runManager op s = andThen (readWord s (pdeAddr s (mgrVirt op))) fun pde =>
      if entryP pde then
        match op with
        | .map m => runPhases 3 (cpuTurn ((atRdPde op s).setPhase (.wrPde m pde)))
        | .query k v => runPhases 3 (cpuTurn ((atRdPde op s).setPhase (.rdPte k v pde)))
      else .next (cpuTurn (failOp (atRdPde op s))) := by
  rw [runManager, runPhases_succ _ _ (by simp)]
  simp only [phaseStep, phaseAction, State.setPhase_ph, phaseCheck]
  rw [if_pos (by simp [h])]
  simp only [andThen_next]
  rw [runPhases_succ _ _ (by simp)]
  simp only [phaseStep, phaseAction, cpuTurn_ph, State.setPhase_ph, phaseRdPde, readWord_cpuTurn, readWord_setPhase,
    resultNone_eq, readWord_setResults, pdeAddr_cpuTurn, pdeAddr_setPhase, pdeAddr_setResults]
  cases readWord s (pdeAddr s (mgrVirt op)) with
  | next pde =>
    simp only [andThen_next]
    split
    · cases op <;> rfl
    · simp only [andThen_next]
      exact runPhases_idle _ _ (by simp)
  | fault e => rfl
  | refused e => rfl

/-- Phase RD_PTE of GET_PHYS and IS_MAPPED ends the operation. -/
theorem runPhases_rdPte (n : Nat) (k : QueryKind) (v pde : Word) (s : State) :
    runPhases (n + 1) (cpuTurn (s.setPhase (.rdPte k v pde))) = andThen (readWord s (pteAddr pde v)) fun pte =>
      if entryP pte then
        match k with
        | .unmap => runPhases n (cpuTurn ((cpuTurn (s.setPhase (.rdPte k v pde))).setPhase (.wrPte v pde 0#32)))
        | .getPhys => .next (cpuTurn (succeedWith (cpuTurn (s.setPhase (.rdPte k v pde))) (frameAddress pte ||| pageOffset v)))
        | .isMapped => .next (cpuTurn (succeedOp (cpuTurn (s.setPhase (.rdPte k v pde)))))
      else .next (cpuTurn (failOp (cpuTurn (s.setPhase (.rdPte k v pde))))) := by
  rw [runPhases_succ _ _ (by simp)]
  simp only [phaseStep, phaseAction, cpuTurn_ph, State.setPhase_ph, phaseRdPte, readWord_cpuTurn, readWord_setPhase]
  cases readWord s (pteAddr pde v) with
  | next pte =>
    simp only [andThen_next]
    split
    · cases k with
      | unmap => rfl
      | getPhys => simp only [andThen_next]; exact runPhases_idle _ _ (by simp)
      | isMapped => simp only [andThen_next]; exact runPhases_idle _ _ (by simp)
    · simp only [andThen_next]
      exact runPhases_idle _ _ (by simp)
  | fault e => rfl
  | refused e => rfl

/-- Phases WR_PTE and INVAL (R17, R206). -/
theorem runPhases_wrPte (n : Nat) (v pde e : Word) (s : State) :
    runPhases (n + 2) (cpuTurn (s.setPhase (.wrPte v pde e))) =
      if isBacked s.cfg (pteAddr pde v) then
        .next (cpuTurn (succeedOp ((invalidatePage (cpuTurn ((((cpuTurn (s.setPhase (.wrPte v pde e))).setMem
          (putWord s.mem (pteAddr pde v) e)).setPending true v).setPhase .inval)) v).setPending false v)))
      else .refused .unbacked := by
  rw [runPhases_succ _ _ (by simp)]
  simp only [phaseStep, phaseAction, cpuTurn_ph, State.setPhase_ph, phaseWrPte]
  split
  · rename_i hb
    rw [writeWord_backed (s := s) (by simp) (by simp) _ hb]
    simp only [andThen_next]
    rw [runPhases_succ _ _ (by simp)]
    simp only [phaseStep, phaseAction, cpuTurn_ph, State.setPhase_ph, phaseInval]
    rw [if_pos (by simp)]
    simp only [andThen_next]
    exact runPhases_idle _ _ (by simp)
  · rename_i hb
    rw [writeWord_unbacked (s := s) (by simp) _ hb]
    rfl

/-- Phase WR_PDE of MAP_PAGE, then WR_PTE and INVAL. -/
theorem runPhases_wrPde (m : MapArgs) (pde : Word) (s : State) :
    runPhases 3 (cpuTurn (s.setPhase (.wrPde m pde))) =
      if isBacked s.cfg (pdeAddr s m.virt) then
        runPhases 2 (cpuTurn (((cpuTurn (s.setPhase (.wrPde m pde))).setMem
          (putWord s.mem (pdeAddr s m.virt) (updatePde s.cfg.pdeFlagMask pde m.pdeFlags))).setPhase
          (.wrPte m.virt pde (packPte m.phys m.pteFlags))))
      else .refused .unbacked := by
  rw [runPhases_succ _ _ (by simp)]
  simp only [phaseStep, phaseAction, cpuTurn_ph, State.setPhase_ph, phaseWrPde, pdeAddr_cpuTurn, pdeAddr_setPhase,
    cpuTurn_cfg, State.setPhase_cfg]
  split
  · rename_i hb
    rw [writeWord_backed (s := s) (by simp) (by simp) _ hb]
    rfl
  · rename_i hb
    rw [writeWord_unbacked (s := s) (by simp) _ hb]
    rfl

/-- What MAP_PAGE answers: a failure that changes nothing else, or a success with both entries written (R188). -/
theorem runManager_map_next {m : MapArgs} {s t : State} (h : runManager (.map m) s = .next t) :
    (t.ok = some false ∧ t.y0 = none ∧ t.y1 = none ∧ t.mem = s.mem ∧ t.ph = .idle ∧ t.invPending = s.invPending
      ∧ t.gdt = s.gdt ∧ t.gdtr = s.gdtr ∧ t.segs = s.segs)
    ∨ ∃ pde, wordAt s.mem (pdeAddr s m.virt) = some pde ∧ t.ok = some true ∧ t.y0 = none ∧ t.y1 = none ∧ t.ph = .idle
      ∧ t.invPending = false ∧ t.gdt = s.gdt ∧ t.gdtr = s.gdtr ∧ t.segs = s.segs
      ∧ t.mem = putWord (putWord s.mem (pdeAddr s m.virt) (updatePde s.cfg.pdeFlagMask pde m.pdeFlags))
          (pteAddr pde m.virt) (packPte m.phys m.pteFlags) := by
  cases hb : s.bound with
  | false => rw [runManager_unbound _ _ hb] at h; injection h with h; left; subst h; simp
  | true =>
    rw [runManager_bound _ _ hb, andThen_eq_next] at h
    obtain ⟨pde, hr, h⟩ := h
    simp only [mgrVirt, readWord_eq_next] at hr
    cases hp : entryP pde with
    | false => simp only [hp] at h; injection h with h; left; subst h; simp
    | true =>
      simp only [hp, if_true] at h
      rw [runPhases_wrPde] at h
      split at h
      · rw [runPhases_wrPte] at h
        split at h
        · injection h with h; right; refine ⟨pde, hr.2, ?_⟩; subst h; simp
        · cases h
      · cases h
/-- What UNMAP_PAGE, GET_PHYS and IS_MAPPED answer: a failure that changes nothing else, or a success (R195, R200, R203). -/
theorem runManager_query_next {k : QueryKind} {v : Word} {s t : State} (h : runManager (.query k v) s = .next t) :
    (t.ok = some false ∧ t.y0 = none ∧ t.y1 = none ∧ t.mem = s.mem ∧ t.ph = .idle ∧ t.invPending = s.invPending
      ∧ t.invAddr = s.invAddr ∧ t.gdt = s.gdt ∧ t.gdtr = s.gdtr ∧ t.segs = s.segs)
    ∨ ∃ pde pte, wordAt s.mem (pdeAddr s v) = some pde ∧ t.ok = some true ∧ t.y1 = none ∧ t.ph = .idle ∧ t.gdtr = s.gdtr
      ∧ t.gdt = s.gdt ∧ t.segs = s.segs
      ∧ ((k = .unmap ∧ t.y0 = none ∧ t.invPending = false ∧ t.mem = putWord s.mem (pteAddr pde v) 0#32)
        ∨ (k = .getPhys ∧ t.y0 = some (frameAddress pte ||| pageOffset v) ∧ t.invPending = s.invPending
          ∧ t.invAddr = s.invAddr ∧ t.mem = s.mem)
        ∨ (k = .isMapped ∧ t.y0 = none ∧ t.invPending = s.invPending ∧ t.invAddr = s.invAddr ∧ t.mem = s.mem)) := by
  cases hb : s.bound with
  | false => rw [runManager_unbound _ _ hb] at h; injection h with h; left; subst h; simp
  | true =>
    rw [runManager_bound _ _ hb, andThen_eq_next] at h
    obtain ⟨pde, hr, h⟩ := h
    simp only [mgrVirt, readWord_eq_next] at hr
    cases hp : entryP pde with
    | false => simp only [hp] at h; injection h with h; left; subst h; simp
    | true =>
      simp only [hp, if_true] at h
      rw [runPhases_rdPte, andThen_eq_next] at h
      obtain ⟨pte, hr2, h⟩ := h
      cases hp2 : entryP pte with
      | false => simp only [hp2] at h; injection h with h; left; subst h; simp
      | true =>
        simp only [hp2, if_true] at h
        right; refine ⟨pde, pte, hr.2, ?_⟩
        cases k with
        | unmap =>
          simp only [] at h
          rw [runPhases_wrPte] at h
          split at h
          · injection h with h; subst h; simp
          · cases h
        | getPhys => injection h with h; subst h; simp
        | isMapped => injection h with h; subst h; simp

/-! The CPU's own acts, through the updates that leave the TLB alone. -/

theorem OnlyCpuActs.setPhase {s t : State} (h : OnlyCpuActs s t) (p : Phase) : OnlyCpuActs s (t.setPhase p) := h

theorem OnlyCpuActs.setResults {s t : State} (h : OnlyCpuActs s t) (y0 y1 : Option Word) (ok : Option Bool) :
    OnlyCpuActs s (t.setResults y0 y1 ok) := h

theorem OnlyCpuActs.atRdPde (op : MgrOp) (s : State) : OnlyCpuActs s (atRdPde op s) :=
  (((OnlyCpuActs.of_tlb_eq (s := s) (t := s.setResults none none none) rfl rfl).setPhase (.check op)).setPhase
    (.rdPde op)).cpuTurn_of (by simp) (by simp) (by simp)

end Sys2Proof.Machine
end

