-- ==== Sys2Proof/Laws/PerInstr.lean ====
section
/-! SUPPORT. Statements for all instructions, one lemma per constructor. Family EncodeCanonical: the command the encoder
writes is canonical, its ignored bits and unused ports zero (spec 30_encoding.md R90, R94). -/

namespace Sys2Proof.Laws.EncodeCanonical

open Sys2Proof

/-- The encoder writes a canonical command. -/
def Statement (i : Instr) : Prop := (encode i).wellFormed = true

/-- A word fits in its own 32 bits. -/
theorem fits_word (w : Word) : Word.fits w 32 = true := by simpa [Word.fits] using w.isLt

/-- A narrow operand widened to a port fits in its width. -/
theorem fits_setWidth {n : Nat} (x : BitVec n) (h : n ≤ 32) : Word.fits (x.setWidth 32) n = true := by
  have := x.isLt
  have h2 : 2 ^ n ≤ 2 ^ 32 := Nat.pow_le_pow_right (by omega) h
  simp only [Word.fits, BitVec.toNat_setWidth, decide_eq_true_eq]
  exact lt_of_le_of_lt (Nat.mod_le _ _) this

theorem fits_zero (n : Nat) : Word.fits 0#32 n = true := by simp [Word.fits]

theorem fits_tableRef (t : TableRef) : Word.fits (tableRefWord t) 1 = true := by cases t <;> decide

theorem of_fits (i : Instr) (f : Format) (n0 n1 n2 n3 : Nat) (hf : formatOf (codeOf (rowOf i)) = some f)
    (hw : f.portWidths = (n0, n1, n2, n3)) (h0 : Word.fits (encode i).a0 n0 = true) (h1 : Word.fits (encode i).a1 n1 = true)
    (h2 : Word.fits (encode i).a2 n2 = true) (h3 : Word.fits (encode i).a3 n3 = true) : Statement i := by
  simp [Statement, Command.wellFormed, hf, hw, h0, h1, h2, h3]

theorem encDesc (base limit : Word) (access flags : Byte) : Statement (.encDesc base limit access flags) :=
  of_fits _ .s4 _ _ _ _ rfl rfl (fits_word _) (fits_word _) (fits_setWidth _ (by omega)) (fits_setWidth _ (by omega))
theorem initGdt (t : TableRef) : Statement (.initGdt t) :=
  of_fits _ .t1 _ _ _ _ rfl rfl (fits_tableRef _) (fits_zero _) (fits_zero _) (fits_zero _)
theorem loadGdt (t : TableRef) : Statement (.loadGdt t) :=
  of_fits _ .t1 _ _ _ _ rfl rfl (fits_tableRef _) (fits_zero _) (fits_zero _) (fits_zero _)
theorem encPde (pa : Word) (fl : FlagsRecord) : Statement (.encPde pa fl) :=
  of_fits _ .e2 _ _ _ _ rfl rfl (fits_word _) (fits_setWidth _ (by omega)) (fits_zero _) (fits_zero _)
theorem decPde (e : Word) : Statement (.decPde e) :=
  of_fits _ .e1 _ _ _ _ rfl rfl (fits_word _) (fits_zero _) (fits_zero _) (fits_zero _)
theorem encPte (pa : Word) (fl : FlagsRecord) : Statement (.encPte pa fl) :=
  of_fits _ .e2 _ _ _ _ rfl rfl (fits_word _) (fits_setWidth _ (by omega)) (fits_zero _) (fits_zero _)
theorem decPte (e : Word) : Statement (.decPte e) :=
  of_fits _ .e1 _ _ _ _ rfl rfl (fits_word _) (fits_zero _) (fits_zero _) (fits_zero _)
theorem v2p (v : Word) : Statement (.v2p v) :=
  of_fits _ .v1 _ _ _ _ rfl rfl (fits_word _) (fits_zero _) (fits_zero _) (fits_zero _)
theorem p2v (p : Word) : Statement (.p2v p) :=
  of_fits _ .v1 _ _ _ _ rfl rfl (fits_word _) (fits_zero _) (fits_zero _) (fits_zero _)
theorem dirIdx (v : Word) : Statement (.dirIdx v) :=
  of_fits _ .v1 _ _ _ _ rfl rfl (fits_word _) (fits_zero _) (fits_zero _) (fits_zero _)
theorem tblIdx (v : Word) : Statement (.tblIdx v) :=
  of_fits _ .v1 _ _ _ _ rfl rfl (fits_word _) (fits_zero _) (fits_zero _) (fits_zero _)
theorem pgOff (v : Word) : Statement (.pgOff v) :=
  of_fits _ .v1 _ _ _ _ rfl rfl (fits_word _) (fits_zero _) (fits_zero _) (fits_zero _)
theorem frameAddr (e : Word) : Statement (.frameAddr e) :=
  of_fits _ .v1 _ _ _ _ rfl rfl (fits_word _) (fits_zero _) (fits_zero _) (fits_zero _)
theorem initRt : Statement .initRt :=
  of_fits _ .n0 _ _ _ _ rfl rfl (fits_zero _) (fits_zero _) (fits_zero _) (fits_zero _)
theorem mapPage (virt phys : Word) (pdeFlags pteFlags : FlagsRecord) : Statement (.mapPage virt phys pdeFlags pteFlags) :=
  of_fits _ .m4 _ _ _ _ rfl rfl (fits_word _) (fits_word _) (fits_setWidth _ (by omega)) (fits_setWidth _ (by omega))
theorem unmapPage (virt : Word) : Statement (.unmapPage virt) :=
  of_fits _ .q1 _ _ _ _ rfl rfl (fits_word _) (fits_zero _) (fits_zero _) (fits_zero _)
theorem getPhys (virt : Word) : Statement (.getPhys virt) :=
  of_fits _ .q1 _ _ _ _ rfl rfl (fits_word _) (fits_zero _) (fits_zero _) (fits_zero _)
theorem isMapped (virt : Word) : Statement (.isMapped virt) :=
  of_fits _ .q1 _ _ _ _ rfl rfl (fits_word _) (fits_zero _) (fits_zero _) (fits_zero _)
theorem pLgdt (limit : Half) (base : Word) : Statement (.pLgdt limit base) :=
  of_fits _ .primLgdt _ _ _ _ rfl rfl (fits_setWidth _ (by omega)) (fits_word _) (fits_zero _) (fits_zero _)
theorem pReloadSegs : Statement .pReloadSegs :=
  of_fits _ .primNone _ _ _ _ rfl rfl (fits_zero _) (fits_zero _) (fits_zero _) (fits_zero _)
theorem pInvlpg (virt : Word) : Statement (.pInvlpg virt) :=
  of_fits _ .primWord _ _ _ _ rfl rfl (fits_word _) (fits_zero _) (fits_zero _) (fits_zero _)
theorem pFlushTlb : Statement .pFlushTlb :=
  of_fits _ .primNone _ _ _ _ rfl rfl (fits_zero _) (fits_zero _) (fits_zero _) (fits_zero _)
theorem pRdCr3 : Statement .pRdCr3 :=
  of_fits _ .primNone _ _ _ _ rfl rfl (fits_zero _) (fits_zero _) (fits_zero _) (fits_zero _)
theorem pWrCr3 (phys : Word) : Statement (.pWrCr3 phys) :=
  of_fits _ .primWord _ _ _ _ rfl rfl (fits_word _) (fits_zero _) (fits_zero _) (fits_zero _)

end Sys2Proof.Laws.EncodeCanonical
end

