-- ==== Sys2Proof/Laws/Primitives.lean ====
section
/-! SUPPORT. The CPU primitives and LOAD_GDT, said once (spec 45_cpu_primitives.md R220 to R226, 41_gdt_table.md R126):
when a table is acceptable, in the bits of its descriptors, and what LOAD_GDT answers. -/

namespace Sys2Proof.Machine

open Sys2Proof

/-- A selector without its three low bits, as a number. -/
theorem toNat_selector_base (c : Half) : (c &&& 0xFFF8#16).toNat = c.toNat / 8 * 8 := by
  have : c &&& 0xFFF8#16 = (c >>> 3) <<< 3 := by
    apply BitVec.eq_of_getLsbD_eq
    intro i hi
    simp only [BitVec.getLsbD_and, BitVec.getLsbD_shiftLeft, BitVec.getLsbD_ushiftRight]
    interval_cases i <;> simp
  have := c.isLt
  simp only [‹c &&& 0xFFF8#16 = _›, BitVec.toNat_shiftLeft, BitVec.toNat_ushiftRight, Nat.shiftLeft_eq,
    Nat.shiftRight_eq_div_pow]
  omega

/-- R79: a selector is its index, its table indicator and its requested privilege level, and nothing else; with the last two
zero it is the slot's offset. -/
theorem selector_eq_fields (c : Half) :
    c.toNat = 8 * selectorIndex c + 4 * (selectorTi c).toNat + (selectorRpl c).toNat := by
  have e : selectorTi c = decide (c.toNat / 4 % 2 = 1) := by
    rw [selectorTi, BitVec.getLsbD, Nat.testBit_eq_decide_div_mod_eq]
  have t : (selectorTi c).toNat = c.toNat / 4 % 2 := by
    rw [e]
    rcases Nat.mod_two_eq_zero_or_one (c.toNat / 4) with h | h <;> rw [h] <;> rfl
  have r : (selectorRpl c).toNat = c.toNat % 4 := by simp [selectorRpl]
  rw [t, r, selectorIndex]
  omega

theorem selectorRpl_eq_zero (c : Half) : selectorRpl c = 0#2 ↔ c.toNat % 4 = 0 := by
  rw [← BitVec.toNat_inj]
  simp [selectorRpl]

theorem accessDpl_eq_zero (d : Descriptor) :
    accessDpl (descAccess d) = 0#2 ↔ d.getLsbD 46 = false ∧ d.getLsbD 45 = false := by
  constructor
  · intro h
    have h0 := congrArg (·.getLsbD 0) h
    have h1 := congrArg (·.getLsbD 1) h
    simp only [accessDpl, descAccess, BitVec.getLsbD_extractLsb'] at h0 h1
    simp at h0 h1
    exact ⟨by simpa using h1, by simpa using h0⟩
  · rintro ⟨h1, h0⟩
    apply BitVec.eq_of_getLsbD_eq
    intro i hi
    simp only [accessDpl, descAccess, BitVec.getLsbD_extractLsb']
    interval_cases i <;> simp_all

theorem accessP_descAccess (d : Descriptor) : accessP (descAccess d) = d.getLsbD 47 := by simp [accessP, descAccess]

theorem accessS_descAccess (d : Descriptor) : accessS (descAccess d) = d.getLsbD 44 := by simp [accessS, descAccess]

theorem accessE_descAccess (d : Descriptor) : accessE (descAccess d) = d.getLsbD 43 := by simp [accessE, descAccess]

theorem accessRw_descAccess (d : Descriptor) : accessRw (descAccess d) = d.getLsbD 41 := by simp [accessRw, descAccess]

/-- The executable test of R222 is R222's predicate on the bits of the descriptors. -/
theorem acceptable_iff (c : Config) (g : Gdtr) (gdt : Vector Descriptor 6) :
    acceptable c g gdt = true ↔ TableAcceptable c g gdt := by
  unfold acceptable TableAcceptable
  simp only [show ∀ s : Half, selectorIndex s = s.toNat / 8 from fun _ => rfl]
  cases gdt[c.kernelCs.toNat / 8]? with
  | none => simp
  | some code =>
    cases gdt[c.kernelDs.toNat / 8]? with
    | none => simp
    | some data =>
      simp only [Bool.and_eq_true, decide_eq_true_eq, toNat_selector_base, selectorRpl_eq_zero, accessDpl_eq_zero,
        accessP_descAccess, accessS_descAccess, accessE_descAccess, accessRw_descAccess, Bool.not_eq_true']
      constructor
      · rintro ⟨⟨⟨⟨⟨⟨⟨⟨⟨⟨⟨⟨⟨a, b⟩, d⟩, e⟩, f⟩, g⟩, h, h'⟩, i⟩, j⟩, k⟩, l⟩, m⟩, n, n'⟩, o⟩
        exact ⟨code, data, rfl, rfl, a, b, d, e, f, g, h, h', i, j, k, l, m, n, n', o⟩
      · rintro ⟨_, _, hc, hd, a, b, d, e, f, g, h, h', i, j, k, l, m, n, n', o⟩
        cases hc
        cases hd
        exact ⟨⟨⟨⟨⟨⟨⟨⟨⟨⟨⟨⟨⟨a, b⟩, d⟩, e⟩, f⟩, g⟩, h, h'⟩, i⟩, j⟩, k⟩, l⟩, m⟩, n, n'⟩, o⟩

/-- The segment registers of an acceptable table (R221). -/
theorem segsReloaded_of_acceptable {c : Config} {g : Gdtr} {gdt : Vector Descriptor 6} (h : TableAcceptable c g gdt) :
    SegsReloaded c gdt (reloadedSegs c gdt) := by
  obtain ⟨code, data, h1, h2, -⟩ := h
  refine ⟨code, data, h1, h2, ?_, ?_, rfl, rfl, rfl, rfl⟩
  · simp [reloadedSegs, loadSeg, selectorIndex, h1, markLoaded]
  · simp [reloadedSegs, loadSeg, selectorIndex, h2, markLoaded]

/-- The executable test of `markDescriptor` is `LoadedFrom`. -/
theorem loadedFrom_iff (s : State) (k : Fin 6) : s.segs.regs.any (loadedFrom s.gdt k) = true ↔ LoadedFrom s k := by
  have one : ∀ r, loadedFrom s.gdt k r = true ↔ r.selector.toNat / 8 = k.val
      ∧ r.cached = s.gdt[k] ||| 0x0000010000000000#64 := by
    intro r
    simp only [loadedFrom, Bool.and_eq_true, decide_eq_true_eq]
    rfl
  simp only [LoadedFrom, List.any_eq_true, one]
  rfl

/-- What the CPU's mark of a slot does: nothing, or the slot's accessed bit (R71). -/
theorem markDescriptor_cases (s : State) (k : Fin 6) :
    (¬ LoadedFrom s k ∧ markDescriptor s k = s)
      ∨ (LoadedFrom s k ∧ markDescriptor s k = s.setGdt (s.gdt.set k (s.gdt[k] ||| 0x0000010000000000#64))) := by
  unfold markDescriptor
  split
  · rename_i h
    exact .inr ⟨(loadedFrom_iff s k).1 h, rfl⟩
  · rename_i h
    exact .inl ⟨fun e => h ((loadedFrom_iff s k).2 e), rfl⟩

/-- The two phases of LOAD_GDT (R126, R128), with the CPU's turn after each. -/
theorem execLoadGdt_table (s : State) : execLoadGdt .table s =
    if acceptable s.cfg { limit := 0x002F#16, base := s.cfg.gdtLinearBase } s.gdt then
      .next (cpuTurn ((((cpuTurn (((resultNone s).setGdtr 0x002F#16 s.cfg.gdtLinearBase).setPhase .reload)).setSegs
        (reloadedSegs s.cfg s.gdt)).setPhase .idle)))
    else .fault .badGdt := by
  have reload : ∀ u : State, u.cfg = s.cfg → u.gdt = s.gdt → u.gdtr = { limit := 0x002F#16, base := s.cfg.gdtLinearBase } →
      reloadSegs u = if acceptable s.cfg { limit := 0x002F#16, base := s.cfg.gdtLinearBase } s.gdt then
        .next (u.setSegs (reloadedSegs s.cfg s.gdt)) else .fault .badGdt := by
    intro u hc hg hr
    simp only [reloadSegs, hc, hg, hr, raiseFatal]
  have hl : gdtPointerLimit = 0x002F#16 := rfl
  rw [execLoadGdt, runPhases_succ _ _ (by simp)]
  simp only [phaseStep, phaseAction, State.setPhase_ph, phaseLgdt, andThen_next, loadGdtr, hl]
  rw [runPhases_succ _ _ (by simp)]
  simp only [phaseStep, phaseAction, cpuTurn_ph, State.setPhase_ph, phaseReload]
  rw [reload _ (by simp) (by simp) (by simp)]
  split
  · simp only [andThen_next]
    rw [runPhases_idle _ _ (by simp)]
    rfl
  · rfl

end Sys2Proof.Machine
end

