-- ==== Sys2Proof/Laws/Step.lean ====
section
/-! SUPPORT. The step, said once: a run takes one step at a time; what a step with no waiting action is; what the host's
guard answers (spec 10_state.md R14). -/

namespace Sys2Proof.Machine

open Sys2Proof

@[simp] theorem run_zero (s : State) : Host.Core.run core 0 s = .next s := rfl

theorem coreRun_next (M : Host.Core) (n : Nat) (s t : M.State) (h : M.step s = .next t) : M.run (n + 1) s = M.run n t := by
  simp only [Host.Core.run, h]

theorem coreRun_fault (M : Host.Core) (n : Nat) (s : M.State) (e : M.Fault) (h : M.step s = .fault e) :
    M.run (n + 1) s = .fault e := by
  simp only [Host.Core.run, h]

theorem coreRun_refused (M : Host.Core) (n : Nat) (s : M.State) (e : M.Refusal) (h : M.step s = .refused e) :
    M.run (n + 1) s = .refused e := by
  simp only [Host.Core.run, h]

/-- A run takes one step at a time. -/
theorem run_succ (n : Nat) (s : State) : Host.Core.run core (n + 1) s =
    andThen (β := State) (step s) (Host.Core.run core n) := by
  cases h : step s with
  | next t => exact coreRun_next core n s t h
  | fault e => exact coreRun_fault core n s e h
  | refused e => exact coreRun_refused core n s e h

theorem run_of_step {n : Nat} {s t : State} (h : step s = .next t) :
    Host.Core.run core (n + 1) s = Host.Core.run core n t := by rw [run_succ, h]; rfl

theorem step_no_input (s : State) (h : s.inputs = []) : step s = continueBlock s := by simp [step, h]

theorem step_input (s : State) (i : Input) (rest : List Input) (h : s.inputs = i :: rest) :
    step s = takeInput i (cpuTurn (s.setInputs rest)) := by simp [step, h]

theorem continueBlock_idle (s : State) (h : s.ph = .idle) : continueBlock s = .next (cpuTurn s) := by simp [continueBlock, h]

theorem continueBlock_busy (s : State) (h : s.ph ≠ .idle) : continueBlock s = phaseStep s := by
  cases hp : s.ph <;> simp_all [continueBlock]

/-- The host's guard answers a next state only in IDLE. -/
theorem whenIdle_eq_next (s t : State) (r : Res State) : whenIdle s r = .next t ↔ s.ph = .idle ∧ r = .next t := by
  cases hp : s.ph <;> simp [whenIdle, hp]

theorem whenIdle_idle {s : State} (h : s.ph = .idle) (r : Res State) : whenIdle s r = r := by simp [whenIdle, h]

theorem whenIdle_busy {s : State} (h : s.ph ≠ .idle) (r : Res State) : whenIdle s r = .refused .busy := by
  cases hp : s.ph <;> simp_all [whenIdle]

/-- The phases left, at most, from each phase (R209). -/
def phasesLeft : Phase → Nat
  | .idle => 0
  | .check _ => 5
  | .rdPde _ => 4
  | .wrPde _ _ => 3
  | .rdPte _ _ _ => 3
  | .wrPte _ _ _ => 2
  | .inval => 1
  | .lgdt => 2
  | .reload => 1

end Sys2Proof.Machine
end

