-- ==== Sys2Proof/Tests/Slice0.lean ====
section
/-! SUPPORT. Tests: expected values are those of spec/95_test_vectors.md (cited by section) or of the rule named; and, for
every statement with hypotheses, a witness that meets them together. -/

namespace Sys2Proof.Tests

open Sys2Proof Sys2Proof.Machine

/-! ### Helpers -/

/-- One field of an outcome's next state. -/
def field {α : Type} (r : Res State) (f : State → α) : Option α :=
  match r with
  | .next s => some (f s)
  | _ => none

/-- Why an outcome refuses. -/
def refusal {α : Type} (r : Res α) : Option Refusal :=
  match r with
  | .refused e => some e
  | _ => none

/-- Why an outcome faults. -/
def fault {α : Type} (r : Res α) : Option Fault :=
  match r with
  | .fault e => some e
  | _ => none

/-- What a decoder answers. -/
def decoded (r : Except DecodeError Instr) : Option Instr :=
  match r with
  | .ok i => some i
  | .error _ => none

/-- Why a decoder refuses. -/
def rejected (r : Except DecodeError Instr) : Option DecodeError :=
  match r with
  | .ok _ => none
  | .error e => some e

/-- Words written to an empty memory. -/
def memOf : List (Word × Word) → Memory
  | [] => []
  | (pa, v) :: r => putWord (memOf r) pa v

/-- Part of the start state S0 of section 2.6: directory at 0x00105000 with slot 2 present, slot 3 empty, and the words of
the page table at 0x00102000 that the tests read. -/
def s0 : State :=
  { State.reset with
    bound := true, curDir := 0x00105#20, cr3 := 0x00105000#32, tlb := [],
    mem := memOf [(0x00105008#32, 0x00102003#32), (0x0010500C#32, 0#32), (0x00102000#32, 0#32), (0x0010200C#32, 0#32)] }

/-- S0 with the page 0x00800000 mapped to the frame 0x00001000. -/
def s1 : State :=
  { s0 with mem := memOf [(0x00105008#32, 0x00102003#32), (0x0010500C#32, 0#32), (0x00102000#32, 0x00001003#32)] }

/-- S0 with slots 2 and 3 holding one table (20_memory.md R47). -/
def sShared : State :=
  { s0 with mem := memOf [(0x00105008#32, 0x00102003#32), (0x0010500C#32, 0x00102003#32), (0x00102000#32, 0#32)] }

/-- The table INIT_GDT builds, loaded with its pointer (section 2.2). -/
def sGdt : State :=
  { s0 with gdt := builtGdt, gdtr := { limit := 0x002F#16, base := 0xC0104000#32 } }

/-- The same after its reload: CS and SS loaded from slots 1 and 2. -/
def sLoaded : State := { sGdt with segs := reloadedSegs sGdt.cfg sGdt.gdt }

/-! ### Decoding: words written out bit by bit from R91, R92 -/

theorem test_decode_encDesc : decodeTableWord 136 (0b00000001 + 0x12345678 * 2 ^ 8 + 0x000ABCDE * 2 ^ 40 + 0x0000009A * 2 ^ 72
    + 0x000000C0 * 2 ^ 104) = some (.encDesc 0x12345678#32 0x000ABCDE#32 0x9A#8 0xC0#8) := by decide

theorem test_decode_gdt : decodeTableWord 40 (0b00000010 + 1 * 2 ^ 8) = some (.initGdt .table)
    ∧ decodeTableWord 40 (0b00000011 + 0xFFFFFFFE * 2 ^ 8) = some (.loadGdt .null) := by decide

theorem test_decode_codec : decodeTableWord 72 (0b00010000 + 0x00102ABC * 2 ^ 8 + 0xFFFFF003 * 2 ^ 40)
      = some (.encPde 0x00102ABC#32 0x003#12)
    ∧ decodeTableWord 40 (0b00010001 + 0x00102003 * 2 ^ 8) = some (.decPde 0x00102003#32)
    ∧ decodeTableWord 72 (0b00010010 + 0x00001000 * 2 ^ 8 + 0x003 * 2 ^ 40) = some (.encPte 0x00001000#32 0x003#12)
    ∧ decodeTableWord 40 (0b00010011 + 0xDEADB067 * 2 ^ 8) = some (.decPte 0xDEADB067#32) := by decide

theorem test_decode_translator : decodeTableWord 40 (0b00100000 + 0xC0102000 * 2 ^ 8) = some (.v2p 0xC0102000#32)
    ∧ decodeTableWord 40 (0b00100001 + 0x00102000 * 2 ^ 8) = some (.p2v 0x00102000#32)
    ∧ decodeTableWord 40 (0b00100010 + 0xC0102000 * 2 ^ 8) = some (.dirIdx 0xC0102000#32)
    ∧ decodeTableWord 40 (0b00100011 + 0xC0102000 * 2 ^ 8) = some (.tblIdx 0xC0102000#32)
    ∧ decodeTableWord 40 (0b00100100 + 0xC0102000 * 2 ^ 8) = some (.pgOff 0xC0102000#32)
    ∧ decodeTableWord 40 (0b00100101 + 0x00001003 * 2 ^ 8) = some (.frameAddr 0x00001003#32) := by decide

theorem test_decode_manager : decodeTableWord 8 0b00110000 = some .initRt
    ∧ decodeTableWord 136 (0b00110001 + 0x00803ABC * 2 ^ 8 + 0x00205DEF * 2 ^ 40 + 0x003 * 2 ^ 72 + 0x007 * 2 ^ 104)
      = some (.mapPage 0x00803ABC#32 0x00205DEF#32 0x003#12 0x007#12)
    ∧ decodeTableWord 40 (0b00110010 + 0x00803123 * 2 ^ 8) = some (.unmapPage 0x00803123#32)
    ∧ decodeTableWord 40 (0b00110011 + 0x00800123 * 2 ^ 8) = some (.getPhys 0x00800123#32)
    ∧ decodeTableWord 40 (0b00110100 + 0x00800123 * 2 ^ 8) = some (.isMapped 0x00800123#32) := by decide

theorem test_decode_primitives : decodeTableWord 72 (0b01000000 + 0x002F * 2 ^ 8 + 0xC0104000 * 2 ^ 40)
      = some (.pLgdt 0x002F#16 0xC0104000#32)
    ∧ decodeTableWord 8 0b01000001 = some .pReloadSegs
    ∧ decodeTableWord 40 (0b01000010 + 0x00800000 * 2 ^ 8) = some (.pInvlpg 0x00800000#32)
    ∧ decodeTableWord 8 0b01000011 = some .pFlushTlb ∧ decodeTableWord 8 0b01000100 = some .pRdCr3
    ∧ decodeTableWord 40 (0b01000101 + 0x00105000 * 2 ^ 8) = some (.pWrCr3 0x00105000#32) := by decide

/-- Section 2.8: refused codes beside accepted ones. -/
theorem test_decode_refusals : rejected (decodeOperation (.of 0x00#8)) = some (.reserved 0x00#8)
    ∧ rejected (decodeOperation (.of 0x04#8)) = some (.reserved 0x04#8)
    ∧ rejected (decodeOperation (.of 0x35#8)) = some (.reserved 0x35#8)
    ∧ rejected (decodeOperation (.of 0x42#8)) = some (.primitiveFromHost 0x42#8)
    ∧ rejected (decodeRequest (.of 0x34#8)) = some (.notPrimitive 0x34#8) := by decide

/-! ### WellFormed: each check refuses an ill-formed command -/

theorem test_wf_code : (Command.of 0x04#8).wellFormed = false ∧ (Command.of 0x30#8).wellFormed = true := by decide
theorem test_wf_s4_access : (Command.of 0x01#8 0#32 0#32 0x100#32).wellFormed = false := by decide
theorem test_wf_s4_flags : (Command.of 0x01#8 0#32 0#32 0#32 0x100#32).wellFormed = false := by decide
theorem test_wf_t1 : (Command.of 0x02#8 2#32).wellFormed = false ∧ (Command.of 0x02#8 1#32).wellFormed = true := by decide
theorem test_wf_e2 : (Command.of 0x10#8 0#32 0x1000#32).wellFormed = false := by decide
theorem test_wf_e1_unused : (Command.of 0x11#8 0#32 1#32).wellFormed = false := by decide
theorem test_wf_v1_unused : (Command.of 0x20#8 0#32 0#32 1#32).wellFormed = false := by decide
theorem test_wf_n0 : (Command.of 0x30#8 1#32).wellFormed = false := by decide
theorem test_wf_m4 : (Command.of 0x31#8 0#32 0#32 0x1000#32).wellFormed = false
    ∧ (Command.of 0x31#8 0#32 0#32 0#32 0x1000#32).wellFormed = false := by decide
theorem test_wf_q1_unused : (Command.of 0x33#8 0#32 0#32 0#32 1#32).wellFormed = false := by decide
theorem test_wf_primLgdt : (Command.of 0x40#8 0x10000#32).wellFormed = false
    ∧ (Command.of 0x40#8 0xFFFF#32 0xFFFFFFFF#32).wellFormed = true := by decide
theorem test_wf_primNone : (Command.of 0x43#8 1#32).wellFormed = false := by decide
theorem test_wf_primWord_unused : (Command.of 0x42#8 0#32 1#32).wellFormed = false := by decide

/-! ### One step, fetched: withFetchWord places an instruction and step runs it -/

theorem test_step_initRt : field (step (State.reset.withFetchWord 8 0x30)) (·.bound) = some true
    ∧ field (step (State.reset.withFetchWord 8 0x30)) (·.curDir) = some 0x00105#20 := by decide
theorem test_step_pLgdt :
    field (step (State.reset.withFetchWord 72 (0x40 + 0x002F * 2 ^ 8 + 0xC0104000 * 2 ^ 40))) (·.gdtr)
      = some { limit := 0x002F#16, base := 0xC0104000#32 } := by decide
theorem test_step_reserved : refusal (step (State.reset.withFetchWord 8 0x35)) = some (.reservedCode 0x35#8) := by decide
theorem test_step_primitive_from_host :
    refusal (step { State.reset with inputs := [.issue 0x42#8] }) = some (.primitiveFromHost 0x42#8) := by decide
theorem test_step_busy :
    refusal (step { State.reset with ph := .inval, inputs := [.issue 0x30#8] }) = some .busy := by decide
theorem test_step_stepwise : field (step { s0 with a0 := 0x00800000#32, inputs := [.issueStepwise 0x33#8] }) (·.ph)
    = some (.check (.query .getPhys 0x00800000#32)) := by decide
theorem test_step_nextPhase : field (step { s0 with ph := .check (.query .getPhys 0x00800000#32), inputs := [.nextPhase] }) (·.ph)
    = some (.rdPde (.query .getPhys 0x00800000#32)) := by decide
/-- R131: a host write to gdt[1] reaches no segment register; the next reload reads it. -/
theorem test_step_writeGdt : field (step { sGdt with inputs := [.writeGdt 1 0#64] }) (fun s => (s.gdt[1], s.segs, s.gdtr))
      = some (0#64, sGdt.segs, sGdt.gdtr)
    ∧ fault (exec .pReloadSegs { sGdt with gdt := sGdt.gdt.set 1 0#64 }) = some .badGdt := by decide
theorem test_step_read_no_value : fault (step { State.reset with inputs := [.readPort .ok] }) = some .noValue := by decide

/-! ### The descriptor encoder and the GDT (sections 1.1, 2.1, 2.2) -/

theorem test_encDesc_fields : field (exec (.encDesc 0x12345678#32 0x000ABCDE#32 0x9A#8 0xC0#8) s0) (fun s => (s.y1, s.y0))
    = some (some 0x12CA9A34#32, some 0x5678BCDE#32) := by decide
theorem test_encDesc_clamp : field (exec (.encDesc 0xDEADBEEF#32 0xFFF00000#32 0x89#8 0x0F#8) s0) (fun s => (s.y1, s.y0))
    = some (some 0xDE0F89AD#32, some 0xBEEFFFFF#32) := by decide
theorem test_initGdt : field (exec (.initGdt .table) { s0 with gdt := #v[~~~0#64, ~~~0#64, ~~~0#64, ~~~0#64, ~~~0#64, ~~~0#64] })
    (·.gdt) = some #v[0x0000000000000000#64, 0x00CF9A000000FFFF#64, 0x00CF92000000FFFF#64, 0x00CFFA000000FFFF#64,
      0x00CFF2000000FFFF#64, 0x0000890000000000#64] := by decide
/-- R71, R125: the TSS entry is a system descriptor of type 9; R79: the selector 0x0014 has its table indicator set. -/
theorem test_system_type : accessS (descAccess builtGdt[5]) = false ∧ accessType (descAccess builtGdt[5]) = 0x9#4
    ∧ selectorTi 0x0014#16 = true ∧ selectorTi 0x0010#16 = false := by decide
theorem test_initGdt_null : field (exec (.initGdt .null) sGdt) (·.gdt) = some builtGdt := by decide
theorem test_loadGdt : field (exec (.loadGdt .table) { sGdt with gdtr := { limit := 0#16, base := 0#32 } })
    (fun s => (s.gdtr, s.segs.cs.selector, s.segs.ss.selector, s.gdt))
    = some ({ limit := 0x002F#16, base := 0xC0104000#32 }, 0x0008#16, 0x0010#16, builtGdt) := by decide
theorem test_loadGdt_not_present : fault (exec (.loadGdt .table)
    { sGdt with gdt := #v[0#64, 0#64, 0x00CF92000000FFFF#64, 0#64, 0#64, 0#64] }) = some .badGdt := by decide

/-- The 6-byte image of the GDT pointer for G = 0xC0104000 (section 2.2). -/
theorem test_gdt_pointer_image : gdtPointerImage gdtPointerLimit 0xC0104000#32 = [0x2F#8, 0x00#8, 0x00#8, 0x40#8, 0x10#8, 0xC0#8]
    := by decide

/-! ### The entry codec (section 2.3) and the translator (section 2.4) -/

theorem test_encPde : field (exec (.encPde 0x00102ABC#32 0x003#12) s0) (·.y0) = some (some 0x00102003#32) := by decide
theorem test_encPte : field (exec (.encPte 0xDEADBEEF#32 0x067#12) s0) (·.y0) = some (some 0xDEADB067#32) := by decide
theorem test_decPde : field (exec (.decPde 0x000001E3#32) s0) (fun s => (s.y0, s.y1)) = some (some 0#32, some 0x1E3#32) := by
  decide
theorem test_decPte : field (exec (.decPte 0xDEADB067#32) s0) (fun s => (s.y0, s.y1))
    = some (some 0xDEADB000#32, some 0x067#32) := by decide
theorem test_decPte_fields : entryP 0x1E3#32 = true ∧ entryRw 0x1E3#32 = true ∧ entryUs 0x1E3#32 = false
    ∧ entryA 0x1E3#32 = true ∧ pteD 0x1E3#32 = true ∧ ptePat 0x1E3#32 = true ∧ pteG 0x1E3#32 = true ∧ pteAvl 0x1E3#32 = 0#3
    ∧ pdePs 0x1E3#32 = true ∧ pdeAvl 0x1E3#32 = 1#4 := by decide
theorem test_v2p : field (exec (.v2p 0xFFFFFFFF#32) s0) (·.y0) = some (some 0x3FFFFFFF#32) := by decide
theorem test_v2p_below_base : field (exec (.v2p 0xBFFFFFFF#32) s0) (·.y0) = some (some 0xBFFFFFFF#32) := by decide
theorem test_p2v : field (exec (.p2v 0x3FFFFFFF#32) s0) (·.y0) = some (some 0xFFFFFFFF#32) := by decide
theorem test_p2v_wraps : field (exec (.p2v 0x40000000#32) s0) (·.y0) = some (some 0#32) := by decide
theorem test_dirIdx : field (exec (.dirIdx 0xDEADBEEF#32) s0) (·.y0) = some (some 0x37A#32) := by decide
theorem test_tblIdx : field (exec (.tblIdx 0xDEADBEEF#32) s0) (·.y0) = some (some 0x2DB#32) := by decide
theorem test_pgOff : field (exec (.pgOff 0xDEADBEEF#32) s0) (·.y0) = some (some 0xEEF#32) := by decide
theorem test_frameAddr : field (exec (.frameAddr 0xFFFFFFFF#32) s0) (·.y0) = some (some 0xFFFFF000#32) := by decide

/-! ### The paging manager (sections 2.5, 2.6) -/

theorem test_initRt : field (exec .initRt State.reset) (fun s => (s.bound, s.curDir, s.ok)) = some (true, 0x00105#20, none) := by
  decide
theorem test_mapPage_unaligned : field (exec (.mapPage 0x00803ABC#32 0x00205DEF#32 0x003#12 0x007#12) s0)
    (fun s => (s.ok, wordAt s.mem 0x00105008#32, wordAt s.mem 0x0010200C#32, s.invAddr))
    = some (some true, some 0x00102003#32, some 0x00205007#32, 0x00803000#32) := by decide
theorem test_mapPage_no_pde : field (exec (.mapPage 0x00C00000#32 0x00003000#32 0x003#12 0x003#12) s0)
    (fun s => (s.ok, s.mem)) = some (some false, s0.mem) := by decide
theorem test_unmapPage : field (exec (.unmapPage 0x00800123#32) s1)
    (fun s => (s.ok, wordAt s.mem 0x00105008#32, wordAt s.mem 0x00102000#32)) = some (some true, some 0x00102003#32, some 0#32) := by
  decide
theorem test_unmapPage_no_pte : field (exec (.unmapPage 0x00800000#32) s0) (·.ok) = some (some false) := by decide
theorem test_getPhys : field (exec (.getPhys 0x00800123#32) s1) (fun s => (s.ok, s.y0)) = some (some true, some 0x00001123#32) := by
  decide
theorem test_getPhys_no_pde : field (exec (.getPhys 0x00C00000#32) s1) (fun s => (s.ok, s.y0)) = some (some false, none) := by
  decide
theorem test_isMapped : field (exec (.isMapped 0x00800FFF#32) s1) (fun s => (s.ok, s.y0)) = some (some true, none) := by decide
theorem test_isMapped_unbound : field (exec (.isMapped 0x00800000#32) State.reset) (·.ok) = some (some false) := by decide

/-- Section 2.5: the PDE update, row by row. -/
theorem test_updatePde : updatePde 0x01F#12 0x00102027#32 0x003#12 = 0x00102023#32
    ∧ updatePde 0x01F#12 0x001020E7#32 0xF18#12 = 0x001020F8#32 ∧ updatePde 0x01F#12 0x00102003#32 0x002#12 = 0x00102002#32
    ∧ updatePde 0x01E#12 0x00102003#32 0x002#12 = 0x00102003#32 ∧ updatePde 0x01F#12 0x00102FFF#32 0x000#12 = 0x00102FE0#32
    ∧ updatePde 0xFFF#12 0x00102003#32 0xFFF#12 = 0x00102FFF#32 := by decide

/-! ### The primitives (R220 to R226) -/

/-- R71: the cached copy of 0x9A has its accessed bit set; the table is as it was (section 2.2). -/
theorem test_pReloadSegs : field (exec .pReloadSegs sGdt) (fun s => (s.segs.cs, s.segs.gs.selector, s.gdt))
    = some ({ selector := 0x0008#16, cached := 0x00CF9B000000FFFF#64 }, 0x0010#16, builtGdt) := by decide
/-- R71: the CPU sets the accessed bit of a slot it has loaded, in any phase, and of no other. -/
theorem test_step_cpuMarkDescriptor :
    field (step { sLoaded with ph := .inval, inputs := [.cpuMarkDescriptor 2] }) (fun s => (s.gdt[1], s.gdt[2]))
      = some (0x00CF9A000000FFFF#64, 0x00CF93000000FFFF#64)
    ∧ field (step { sLoaded with inputs := [.cpuMarkDescriptor 3] }) (·.gdt) = some builtGdt := by decide
/-- R221, R222: bit 2 of a selector is masked, so 0x000C reads slot 1 and is loaded whole; an index above 5 names no slot. -/
theorem test_pReloadSegs_selector_bits :
    field (exec .pReloadSegs { sGdt with cfg := { Config.spec with kernelCs := 0x000C#16 } }) (·.segs.cs)
      = some { selector := 0x000C#16, cached := 0x00CF9B000000FFFF#64 }
    ∧ fault (exec .pReloadSegs { sGdt with gdtr := { limit := 0xFFFF#16, base := 0xC0104000#32 },
                                           cfg := { Config.spec with kernelDs := 0x0030#16 } }) = some .badGdt := by decide
theorem test_pReloadSegs_limit : fault (exec .pReloadSegs { sGdt with gdtr := { limit := 0x0016#16, base := 0xC0104000#32 } })
    = some .badGdt := by decide
theorem test_pInvlpg : field (exec (.pInvlpg 0x00800FFF#32)
    { s0 with tlb := [(0x800, { frame := 1#20, flags := 0x103#12 }), (0x801, { frame := 2#20, flags := 0x003#12 })] }) (·.tlb)
    = some [(0x801, { frame := 2#20, flags := 0x003#12 })] := by decide
theorem test_pFlushTlb : field (exec .pFlushTlb
    { s0 with tlb := [(0x800, { frame := 1#20, flags := 0x003#12 }), (0x801, { frame := 2#20, flags := 0x003#12 })] }) (·.tlb)
    = some [] := by decide
theorem test_pRdCr3 : field (exec .pRdCr3 s0) (·.ret) = some 0x00105000#32 := by decide
theorem test_pWrCr3_same : field (exec (.pWrCr3 0x00105000#32) { s0 with tlb := [(0x800, { frame := 1#20, flags := 0x003#12 })] })
    (fun s => (s.cr3, s.tlb)) = some (0x00105000#32, []) := by decide
theorem test_pWrCr3_other : refusal (exec (.pWrCr3 0x00105001#32) s0) = some .cr3Switch := by decide

/-- R84: a PTE with G only beside its P gives a global entry, and one without G does not. -/
theorem test_cached_global (pde : Word) : (cachedFlags pde 0x12345101#32).getLsbD 8 = true
    ∧ (cachedFlags pde 0x12345E03#32).getLsbD 8 = false := by
  rw [cachedFlags_global, cachedFlags_global]
  decide

/-! ### Witnesses: for each statement with hypotheses, states and operands that meet them together -/

theorem witness_DecodeOfEncode : Instr.isPrimitive .pFlushTlb = true ∧ Instr.isPrimitive .initRt = false := by decide

theorem witness_CanonicalCommands : (Command.of 0x31#8 0x00803ABC#32 0x00205DEF#32 0xFFF#32 0x007#32).wellFormed = true := by
  decide

theorem witness_IgnoredPortBits : ∃ (c d : Command) (f : Format) (n0 n1 n2 n3 : Nat), c ≠ d ∧ c.op = d.op ∧ formatOf c.op = some f
    ∧ f.portWidths = (n0, n1, n2, n3) ∧ c.a0.toNat % 2 ^ n0 = d.a0.toNat % 2 ^ n0 ∧ c.a1.toNat % 2 ^ n1 = d.a1.toNat % 2 ^ n1
    ∧ c.a2.toNat % 2 ^ n2 = d.a2.toNat % 2 ^ n2 ∧ c.a3.toNat % 2 ^ n3 = d.a3.toNat % 2 ^ n3 :=
  ⟨.of 0x02#8 0xFFFFFFFF#32 5#32, .of 0x02#8 1#32, .t1, 1, 0, 0, 0, by decide⟩

/-- Every boundary of R93's ranges, with the refusal it gets, in both forms of issuing. -/
theorem witness_ReservedCodes : ∀ c ∈ [(0x00 : Nat), 0x04, 0x0F, 0x14, 0x1F, 0x26, 0x2F, 0x35, 0x3F, 0x40, 0x45, 0x46, 0xFF],
    ∀ f ∈ [Input.issue, Input.issueStepwise], ∃ (s : State) (code : Byte), code.toNat = c ∧ s.inputs = [f code] ∧ s.ph = .idle
    ∧ (code.toNat = 0x00 ∨ (0x04 ≤ code.toNat ∧ code.toNat ≤ 0x0F) ∨ (0x14 ≤ code.toNat ∧ code.toNat ≤ 0x1F)
      ∨ (0x26 ≤ code.toNat ∧ code.toNat ≤ 0x2F) ∨ 0x35 ≤ code.toNat)
    ∧ refusal (step s) = some (if 0x40 ≤ code.toNat ∧ code.toNat ≤ 0x45 then .primitiveFromHost code else .reservedCode code) := by
  intro c hc f hf
  refine ⟨{ State.reset with inputs := [f (BitVec.ofNat 8 c)] }, BitVec.ofNat 8 c, ?_, rfl, rfl, ?_, ?_⟩
  · revert c; decide
  · revert c; decide
  · simp only [List.mem_cons, List.not_mem_nil, or_false] at hf
    obtain rfl | rfl := hf <;> revert c <;> decide

theorem witness_StepRunsTheIssuedOperation : ∃ (s : State) (i : Instr), s.inputs = [.issue 0x33#8] ∧ s.ph = .idle
    ∧ decodeOperation { op := 0x33#8, a0 := s.a0, a1 := s.a1, a2 := s.a2, a3 := s.a3 } = .ok i :=
  ⟨{ s1 with a0 := 0x00800123#32, inputs := [.issue 0x33#8] }, .getPhys 0x00800123#32, rfl, rfl, rfl⟩

/-- The state a lone issue of `code` leaves for the operation. -/
def taken (s : State) (code : Byte) : State :=
  { s with inputs := [], op := code, tlb := tlbActs s s.tlb (Config.cpuActs s.cpuTick), cpuTick := s.cpuTick + 1 }

/-- An operation issued stepwise whose whole form answers, one whose whole form faults, and one it refuses. -/
theorem witness_StepwiseIssue : ∃ s u v : State, (∀ x ∈ [s, u, v], x.inputs = [.issueStepwise 0x33#8] ∧ x.ph = .idle
      ∧ decodeOperation { op := 0x33#8, a0 := x.a0, a1 := x.a1, a2 := x.a2, a3 := x.a3 } = .ok (.getPhys 0x00800123#32))
    ∧ (∃ t, exec (.getPhys 0x00800123#32) (taken s 0x33#8) = .next t)
    ∧ exec (.getPhys 0x00800123#32) (taken u 0x33#8) = .fault .unwrittenMemory
    ∧ exec (.getPhys 0x00800123#32) (taken v 0x33#8) = .refused .unbacked := by
  refine ⟨{ s1 with a0 := 0x00800123#32, inputs := [.issueStepwise 0x33#8] },
    { s1 with a0 := 0x00800123#32, inputs := [.issueStepwise 0x33#8], mem := [] },
    { s1 with a0 := 0x00800123#32, inputs := [.issueStepwise 0x33#8], cfg := { Config.spec with backed := [] } }, ?_, ⟨_, rfl⟩,
    rfl, rfl⟩
  intro x hx
  simp only [List.mem_cons, List.not_mem_nil, or_false] at hx
  obtain rfl | rfl | rfl := hx <;> exact ⟨rfl, rfl, rfl⟩

theorem witness_StepRunsTheRequestedPrimitive : ∃ (s : State) (c : Command) (i : Instr), s.inputs = [.primitive c] ∧ s.ph = .idle
    ∧ decodeRequest c = .ok i :=
  ⟨{ s0 with inputs := [.primitive (.of 0x42#8 0x00800000#32)] }, .of 0x42#8 0x00800000#32, .pInvlpg 0x00800000#32, rfl, rfl, rfl⟩

theorem witness_StepWithNoInput : (s0.inputs = [] ∧ s0.ph = .idle) ∧ (∃ s : State, s.inputs = [] ∧ s.ph ≠ .idle)
    ∧ (∃ s : State, s.inputs = [.nextPhase] ∧ s.ph = .idle) ∧ ∃ s : State, s.inputs = [.nextPhase] ∧ s.ph ≠ .idle :=
  ⟨⟨rfl, rfl⟩, ⟨{ s0 with ph := .lgdt }, rfl, by decide⟩, ⟨{ s0 with inputs := [.nextPhase] }, rfl, rfl⟩,
    { s0 with ph := .lgdt, inputs := [.nextPhase] }, rfl, by decide⟩

theorem witness_HostActionsOutsideIdle : ∃ (s : State) (i : Input), s.inputs = [i] ∧ (∀ n m, i ≠ .cpuMark n m)
    ∧ (∀ k, i ≠ .cpuMarkDescriptor k) ∧ i ≠ .nextPhase ∧ s.ph ≠ .idle :=
  ⟨{ s0 with ph := .lgdt, inputs := [.issue 0x30#8] }, .issue 0x30#8, rfl, by simp, by simp, by simp, by decide⟩

/-- Each port without a value, and each with one. -/
theorem witness_ReadingAPort : (∀ p : ResultPort, ∃ s : State, s.ph = .idle ∧ s.inputs = [.readPort p] ∧ s.y0 = none ∧ s.y1 = none
      ∧ s.ok = none)
    ∧ ∀ p : ResultPort, ∃ s : State, s.ph = .idle ∧ s.inputs = [.readPort p] ∧ s.y0 ≠ none ∧ s.y1 ≠ none ∧ s.ok ≠ none :=
  ⟨fun p => ⟨{ s0 with inputs := [.readPort p] }, rfl, rfl, rfl, rfl, rfl⟩,
    fun p => ⟨{ s0 with inputs := [.readPort p], y0 := some 0#32, y1 := some 0#32, ok := some true }, rfl, rfl, by simp, by simp,
      by simp⟩⟩

/-- Each of the host's actions, at the ends of the address space and beyond the backed memory. -/
theorem witness_HostActions : (∃ s : State, s.ph = .idle ∧ s.inputs = [.writePort .a3 0xFFFFFFFF#32])
    ∧ (∀ slot : Fin 6, ∃ s : State, s.ph = .idle ∧ s.inputs = [.writeGdt slot 0x0000890000000067#64])
    ∧ (∃ s : State, s.ph = .idle ∧ s.inputs = [.loadCr3 0x00105000#32])
    ∧ (∃ s : State, s.ph = .idle ∧ s.inputs = [.storeByte 0xFFFFFFFF#32 0#8] ∧ isBacked s.cfg 0xFFFFFFFF#32 = true)
    ∧ ∃ s : State, s.ph = .idle ∧ s.inputs = [.storeByte 0#32 0#8] ∧ isBacked s.cfg 0#32 = false :=
  ⟨⟨{ s0 with inputs := [.writePort .a3 0xFFFFFFFF#32] }, rfl, rfl⟩,
    fun slot => ⟨{ s0 with inputs := [.writeGdt slot 0x0000890000000067#64] }, rfl, rfl⟩,
    ⟨{ s0 with inputs := [.loadCr3 0x00105000#32] }, rfl, rfl⟩,
    ⟨{ s0 with inputs := [.storeByte 0xFFFFFFFF#32 0#8] }, rfl, rfl, by decide⟩,
    ⟨{ s0 with inputs := [.storeByte 0#32 0#8], cfg := { Config.spec with backed := [{ base := 4096, size := 4096 }] } }, rfl, rfl,
      by decide⟩⟩

theorem witness_EncDescClamps : 0x100000 ≤ (0x100000#32 : Word).toNat := by decide

theorem witness_EncDescOneToOne : ∃ (s : State) (b l b' l' : Word) (a f a' f' : Byte), l.toNat ≤ 0xFFFFF ∧ l'.toNat ≤ 0xFFFFF
    ∧ f.toNat % 16 = 0 ∧ f'.toNat % 16 = 0 ∧ exec (.encDesc b l a f) s = exec (.encDesc b' l' a' f') s :=
  ⟨s0, 1#32, 0xFFFFF#32, 1#32, 0xFFFFF#32, 0x9A#8, 0xF0#8, 0x9A#8, 0xF0#8, by decide, by decide, by decide, by decide, rfl⟩

/-- R222 at its boundary: the last limit that holds the data descriptor, and the first that does not. -/
theorem witness_TableAcceptable : TableAcceptable sGdt.cfg { limit := 0x0017#16, base := 0xC0104000#32 } sGdt.gdt
    ∧ ¬ TableAcceptable sGdt.cfg { limit := 0x0016#16, base := 0xC0104000#32 } sGdt.gdt := by
  rw [← acceptable_iff, ← acceptable_iff]
  decide

theorem witness_LoadGdt : TableAcceptable sGdt.cfg { limit := 0x002F#16, base := sGdt.cfg.gdtLinearBase } sGdt.gdt
    ∧ ¬ TableAcceptable s0.cfg { limit := 0x002F#16, base := s0.cfg.gdtLinearBase } s0.gdt := by
  rw [← acceptable_iff, ← acceptable_iff]
  decide

theorem witness_ReloadSegs : TableAcceptable sGdt.cfg sGdt.gdtr sGdt.gdt ∧ ¬ TableAcceptable s0.cfg s0.gdtr s0.gdt := by
  rw [← acceptable_iff, ← acceptable_iff]
  decide

theorem witness_LoadGdtAfterInitGdt : s0.cfg.kernelCs = 0x0008#16 ∧ s0.cfg.kernelDs = 0x0010#16 := by decide

/-- A field of the whole word and a field of one bit at the top. -/
theorem witness_CodecLaws : (0 + 32 ≤ 32 ∧ setField 0x1234#32 0 32 0xFFFFFFFF#32 = 0xFFFFFFFF#32)
    ∧ (31 + 1 ≤ 32 ∧ setField 0#32 31 1 1#32 = 0x80000000#32) := by decide

/-- Both sides of the boundary of R162, for the base 0xC0000000 (section 2.4). -/
theorem witness_AddressRoundTrips : (0xC0000000#32 : Word) ≠ 0#32
    ∧ virtToPhys 0xC0000000#32 (physToVirt 0xC0000000#32 0x3FFFFFFF#32) = 0x3FFFFFFF#32
    ∧ virtToPhys 0xC0000000#32 (physToVirt 0xC0000000#32 0x40000000#32) = 0#32 := by decide

theorem witness_PageOffset : ∃ (s t : State) (v y : Word), s.cfg.wf = true ∧ exec (.v2p v) s = .next t ∧ t.y0 = some y
    ∧ v.toNat % 4096 = 0 :=
  ⟨s0, _, 0xC0102000#32, _, by decide, rfl, rfl, by decide⟩

theorem witness_Unbound : State.reset.bound = false := rfl

theorem witness_AbsentPde : s0.bound = true ∧ isBacked s0.cfg (pdeAddr s0 0x00C00000#32) = true
    ∧ wordAt s0.mem (pdeAddr s0 0x00C00000#32) = some 0#32 ∧ (0#32 : Word).getLsbD 0 = false := by decide

theorem witness_AbsentPte : s0.bound = true ∧ isBacked s0.cfg (pdeAddr s0 0x00800000#32) = true
    ∧ wordAt s0.mem (pdeAddr s0 0x00800000#32) = some 0x00102003#32 ∧ (0x00102003#32 : Word).getLsbD 0 = true
    ∧ isBacked s0.cfg (pteAddr 0x00102003#32 0x00800000#32) = true
    ∧ wordAt s0.mem (pteAddr 0x00102003#32 0x00800000#32) = some 0#32 ∧ (0#32 : Word).getLsbD 0 = false := by decide

/-- The directory entry unbacked and unwritten; then, the directory entry present, the table entry unbacked and unwritten. -/
theorem witness_UnreachableDirectory : (∃ s : State, s.bound = true ∧ isBacked s.cfg (pdeAddr s 0x00800000#32) = false)
    ∧ (∃ s : State, s.bound = true ∧ isBacked s.cfg (pdeAddr s 0x00800000#32) = true
      ∧ wordAt s.mem (pdeAddr s 0x00800000#32) = none)
    ∧ (∃ s : State, s.bound = true ∧ isBacked s.cfg (pdeAddr s 0x00800000#32) = true
      ∧ wordAt s.mem (pdeAddr s 0x00800000#32) = some 0x00102003#32 ∧ (0x00102003#32 : Word).getLsbD 0 = true
      ∧ isBacked s.cfg (pteAddr 0x00102003#32 0x00800000#32) = false)
    ∧ ∃ s : State, s.bound = true ∧ isBacked s.cfg (pdeAddr s 0x00800000#32) = true
      ∧ wordAt s.mem (pdeAddr s 0x00800000#32) = some 0x00102003#32 ∧ (0x00102003#32 : Word).getLsbD 0 = true
      ∧ isBacked s.cfg (pteAddr 0x00102003#32 0x00800000#32) = true
      ∧ wordAt s.mem (pteAddr 0x00102003#32 0x00800000#32) = none :=
  ⟨⟨{ s0 with cfg := { Config.spec with backed := [] } }, by decide⟩, ⟨{ s0 with mem := [] }, by decide⟩,
    ⟨{ s0 with cfg := { Config.spec with backed := [{ base := 0x00105000, size := 4096 }] } }, by decide⟩,
    ⟨{ s0 with mem := memOf [(0x00105008#32, 0x00102003#32)] }, by decide⟩⟩

theorem witness_MapPage : s0.bound = true ∧ isBacked s0.cfg (pdeAddr s0 0x00800000#32) = true
    ∧ wordAt s0.mem (pdeAddr s0 0x00800000#32) = some 0x00102003#32 ∧ (0x00102003#32 : Word).getLsbD 0 = true
    ∧ isBacked s0.cfg (pteAddr 0x00102003#32 0x00800000#32) = true
    ∧ (∃ n : PageNumber, n.toNat ≠ (0x00800000#32 : Word).toNat / 4096) :=
  ⟨by decide, by decide, by decide, by decide, by decide, 0xFFFFF#20, by decide⟩

/-- For UnmapPageZeroesThePte and QueriesAnswerOnAMappedPage. -/
theorem witness_MappedPage : s1.bound = true ∧ isBacked s1.cfg (pdeAddr s1 0x00800FFF#32) = true
    ∧ wordAt s1.mem (pdeAddr s1 0x00800FFF#32) = some 0x00102003#32 ∧ (0x00102003#32 : Word).getLsbD 0 = true
    ∧ isBacked s1.cfg (pteAddr 0x00102003#32 0x00800FFF#32) = true
    ∧ wordAt s1.mem (pteAddr 0x00102003#32 0x00800FFF#32) = some 0x00001003#32 ∧ (0x00001003#32 : Word).getLsbD 0 = true := by decide

/-- Each case of the walk occurs, the two stops included. -/
theorem witness_Walk : walk s0 0x00C00000#32 = .next .noPde ∧ walk s0 0x00800000#32 = .next (.noPte 0x00102003#32)
    ∧ walk s1 0x00800000#32 = .next (.mapped 0x00102003#32 0x00001003#32)
    ∧ walk { s0 with mem := [] } 0x00800000#32 = .fault .unwrittenMemory
    ∧ walk { s0 with cfg := { Config.spec with backed := [] } } 0x00800000#32 = .refused .unbacked := ⟨rfl, rfl, rfl, rfl, rfl⟩

/-- The PTE of the page 0x00800000 in S0 is not its PDE (R208 item 7). -/
theorem pte_apart : ∀ pde, wordAt s0.mem (pdeAddr s0 0x00800000#32) = some pde →
    pteAddr pde 0x00800000#32 ≠ pdeAddr s0 0x00800000#32 := by
  intro pde h
  have hw : wordAt s0.mem (pdeAddr s0 0x00800000#32) = some 0x00102003#32 := by decide
  rw [hw] at h
  cases h
  decide

/-- For MappedEntryLiesLittleEndian, MapThenQuery, MapThenUnmap and NoStaleTranslation (the scenario of section 1.3). -/
theorem witness_MapSucceeds : ∃ t : State, exec (.mapPage 0x00800000#32 0x00001000#32 0x003#12 0x003#12) s0 = .next t
    ∧ t.ok = some true ∧ (0x003#12 : FlagsRecord).getLsbD 0 = true ∧ (0xFFF#32 : Word).toNat < 4096
    ∧ wordAt s0.mem (pdeAddr s0 0x00800000#32) = some 0x00102003#32
    ∧ ∀ pde, wordAt s0.mem (pdeAddr s0 0x00800000#32) = some pde → pteAddr pde 0x00800000#32 ≠ pdeAddr s0 0x00800000#32 :=
  ⟨_, rfl, rfl, by decide, by decide, by decide, pte_apart⟩

theorem witness_UnmapSucceeds : ∃ t : State, exec (.unmapPage 0x00800000#32) s1 = .next t ∧ t.ok = some true := ⟨_, rfl, rfl⟩

/-- Phase INVAL, the next phase due by itself or as an action, with a stale entry for the page. -/
theorem witness_InvalStep : (∃ s : State, s.ph = .inval ∧ s.invPending = true ∧ s.inputs = [])
    ∧ ∃ s : State, s.ph = .inval ∧ s.invPending = true ∧ s.inputs = [.nextPhase] ∧ Store.get s.tlb (s.invAddr.toNat / 4096) ≠ none :=
  ⟨⟨{ s0 with ph := .inval, invPending := true }, rfl, rfl, rfl⟩,
    { s0 with ph := .inval, invPending := true, invAddr := 0x00800000#32, inputs := [.nextPhase],
              tlb := [(0x800, { frame := 1#20, flags := 0x003#12 })] }, rfl, rfl, rfl, by decide⟩

theorem witness_MapWithAbsentPteFlag : s0.bound = true ∧ isBacked s0.cfg (pdeAddr s0 0x00800000#32) = true
    ∧ wordAt s0.mem (pdeAddr s0 0x00800000#32) = some 0x00102003#32 ∧ (0x00102003#32 : Word).getLsbD 0 = true
    ∧ isBacked s0.cfg (pteAddr 0x00102003#32 0x00800000#32) = true
    ∧ pteAddr 0x00102003#32 0x00800000#32 ≠ pdeAddr s0 0x00800000#32 ∧ (0x002#12 : FlagsRecord).getLsbD 0 = false := by decide

theorem witness_SharedTable : ∃ t : State,
    exec (.mapPage 0x00800000#32 0x00001000#32 0x003#12 0x003#12) sShared = .next t ∧ t.ok = some true
    ∧ wordAt sShared.mem (pdeAddr sShared 0x00800000#32) = some 0x00102003#32
    ∧ wordAt sShared.mem (pdeAddr sShared 0x00C00000#32) = some 0x00102003#32 ∧ (0x00102003#32 : Word).getLsbD 0 = true
    ∧ isBacked sShared.cfg (pdeAddr sShared 0x00C00000#32) = true ∧ tblIndex 0x00C00000#32 = tblIndex 0x00800000#32
    ∧ pdeAddr sShared 0x00C00000#32 ≠ pdeAddr sShared 0x00800000#32
    ∧ pteAddr 0x00102003#32 0x00800000#32 ≠ pdeAddr sShared 0x00C00000#32 ∧ (0x003#12 : FlagsRecord).getLsbD 0 = true :=
  ⟨_, rfl, rfl, by decide, by decide, by decide, by decide, by decide, by decide, by decide, by decide⟩

/-- For the memory frame: one byte below and one byte above each word written. -/
theorem witness_MemoryFrame : (∃ t : State, exec (.mapPage 0x00800000#32 0x00001000#32 0x003#12 0x003#12) s0 = .next t)
    ∧ (∀ a ∈ [0x00105007, 0x0010500C], OutsideWord (pdeAddr s0 0x00800000#32) a
        ∧ ∀ pde, wordAt s0.mem (pdeAddr s0 0x00800000#32) = some pde → OutsideWord (pteAddr pde 0x00800000#32) a)
    ∧ (∃ t : State, exec (.unmapPage 0x00800000#32) s1 = .next t)
    ∧ ∃ t : State, exec (.getPhys 0x00800000#32) s1 = .next t := by
  refine ⟨⟨_, rfl⟩, ?_, ⟨_, rfl⟩, ⟨_, rfl⟩⟩
  intro a ha
  have hw : wordAt s0.mem (pdeAddr s0 0x00800000#32) = some 0x00102003#32 := by decide
  have hp : (pdeAddr s0 0x00800000#32).toNat = 0x00105008 := by decide
  have ht : (pteAddr 0x00102003#32 0x00800000#32).toNat = 0x00102000 := by decide
  rw [hw]
  simp only [List.mem_cons, List.not_mem_nil, or_false] at ha
  refine ⟨by rw [OutsideWord, hp]; omega, ?_⟩
  rintro pde h
  cases h
  rw [OutsideWord, ht]
  omega

/-- For the register frame, the result ports and EveryInstructionEndsInIdle: an instruction of each shape completes from an
idle state with nothing pending. -/
theorem witness_Frames : s1.ph = .idle ∧ s1.invPending = false
    ∧ (∃ t : State, exec (.encDesc 0#32 0#32 0#8 0#8) s1 = .next t) ∧ (∃ t : State, exec (.loadGdt .table) sGdt = .next t)
    ∧ (∃ t : State, exec .initRt s1 = .next t)
    ∧ (∃ t : State, exec (.mapPage 0x00800000#32 0#32 0x003#12 0x003#12) s1 = .next t)
    ∧ (∃ t : State, exec (.unmapPage 0x00800000#32) s1 = .next t)
    ∧ (∃ t : State, exec (.getPhys 0x00C00000#32) s1 = .next t) ∧ (∃ t : State, exec .pRdCr3 s1 = .next t)
    ∧ ∃ t : State, exec (.pWrCr3 0x00105000#32) s1 = .next t :=
  ⟨rfl, rfl, ⟨_, rfl⟩, ⟨_, rfl⟩, ⟨_, rfl⟩, ⟨_, rfl⟩, ⟨_, rfl⟩, ⟨_, rfl⟩, ⟨_, rfl⟩, ⟨_, rfl⟩⟩

/-- A canonical TLB that holds a global and a non-global entry. -/
theorem witness_Flush : Tlb.wf [(0x800, { frame := 1#20, flags := 0x003#12 }), (0xFFFFF, { frame := 2#20, flags := 0x103#12 })] = true
    ∧ (0x003#12 : FlagsRecord).getLsbD 8 = false ∧ (0x103#12 : FlagsRecord).getLsbD 8 = true := by decide

theorem witness_Cr3 : (0x00106000#32 : Word) ≠ s0.cr3 := by decide

/-- A mapped page and one that is not, with the directory shared and PS = 0. -/
theorem witness_TranslationAgrees : s1.bound = true ∧ s1.cr3.toNat / 4096 = s1.curDir.toNat
    ∧ Store.get s1.tlb ((0x00800123#32 : Word).toNat / 4096) = none
    ∧ (∀ pde, wordAt s1.mem (pdeAddr s1 0x00800123#32) = some pde → pde.getLsbD 7 = false)
    ∧ (∀ pde, wordAt s1.mem (pdeAddr s1 0x00C00000#32) = some pde → pde.getLsbD 7 = false)
    ∧ walk s1 0x00800123#32 = .next (.mapped 0x00102003#32 0x00001003#32)
    ∧ (∀ pde pte, walk s1 0x00C00000#32 ≠ .next (.mapped pde pte))
    ∧ ∃ t : State, exec (.getPhys 0x00800123#32) s1 = .next t := by
  have hw : wordAt s1.mem (pdeAddr s1 0x00800123#32) = some 0x00102003#32 := by decide
  have hv : wordAt s1.mem (pdeAddr s1 0x00C00000#32) = some 0#32 := by decide
  have hn : walk s1 0x00C00000#32 = .next .noPde := rfl
  refine ⟨rfl, by decide, rfl, ?_, ?_, rfl, ?_, _, rfl⟩
  · intro pde h
    rw [hw] at h
    cases h
    decide
  · intro pde h
    rw [hv] at h
    cases h
    decide
  · intro pde pte
    rw [hn]
    simp

/-- Each mark on a mapped page; phase WR_PDE of MAP_PAGE in S0, the CPU about to set the PDE's accessed bit; and the same
update placed in a whole run from IDLE: with bit 5 in PDE_FLAG_MASK and without. -/
theorem witness_AccessedUpdate : (∀ m : CpuMark, ∃ s : State, s.inputs = [.cpuMark 0x00800#20 m]
      ∧ isBacked s.cfg (pdeAddrIn (s.cr3 &&& 0xFFFFF000#32) (pageBase 0x00800#20)) = true
      ∧ wordAt s.mem (pdeAddrIn (s.cr3 &&& 0xFFFFF000#32) (pageBase 0x00800#20)) = some 0x00102003#32
      ∧ (0x00102003#32 : Word).getLsbD 0 = true ∧ (0x00102003#32 : Word).getLsbD 7 = false
      ∧ isBacked s.cfg (pteAddr 0x00102003#32 (pageBase 0x00800#20)) = true
      ∧ wordAt s.mem (pteAddr 0x00102003#32 (pageBase 0x00800#20)) = some 0x00001003#32
      ∧ (0x00001003#32 : Word).getLsbD 0 = true)
    ∧ (∀ b : Bool, ∃ (s : State) (m : MapArgs), s.cfg.pdeFlagMask.getLsbD 5 = b ∧ s.ph = .wrPde m 0x00102003#32
      ∧ s.inputs = [.cpuMark (vpnOf m.virt) .pdeAccessed] ∧ s.cr3.toNat / 4096 = s.curDir.toNat
      ∧ isBacked s.cfg (pdeAddr s m.virt) = true ∧ wordAt s.mem (pdeAddr s m.virt) = some 0x00102003#32
      ∧ (0x00102003#32 : Word).getLsbD 0 = true)
    ∧ ∀ b : Bool, ∃ s : State, s.cfg.pdeFlagMask.getLsbD 5 = b ∧ s.ph = .idle ∧ s.bound = true
      ∧ s.inputs = [.issueStepwise 0x31#8, .nextPhase, .nextPhase, .cpuMark (vpnOf s.a0) .pdeAccessed, .nextPhase]
      ∧ s.cr3.toNat / 4096 = s.curDir.toNat ∧ isBacked s.cfg (pdeAddr s s.a0) = true
      ∧ wordAt s.mem (pdeAddr s s.a0) = some 0x00102003#32 ∧ (0x00102003#32 : Word).getLsbD 0 = true := by
  refine ⟨fun m => ⟨{ s1 with inputs := [.cpuMark 0x00800#20 m] }, rfl, by cases m <;> decide, by cases m <;> decide, by decide,
      by decide, by cases m <;> decide, by cases m <;> decide, by decide⟩,
    fun b => ⟨{ s0 with
        cfg := { s0.cfg with pdeFlagMask := if b then 0xFFF#12 else 0#12 }
        ph := .wrPde { virt := 0x00800000#32, phys := 0#32, pdeFlags := 3#12, pteFlags := 3#12 } 0x00102003#32
        inputs := [.cpuMark 0x00800#20 .pdeAccessed] },
      { virt := 0x00800000#32, phys := 0#32, pdeFlags := 3#12, pteFlags := 3#12 }, by cases b <;> decide, rfl,
      by cases b <;> rfl, by cases b <;> decide, by cases b <;> decide, by cases b <;> decide, by decide⟩,
    fun b => ⟨{ s0 with
        cfg := { s0.cfg with pdeFlagMask := if b then 0xFFF#12 else 0#12 }
        a0 := 0x00800000#32
        inputs := [.issueStepwise 0x31#8, .nextPhase, .nextPhase, .cpuMark 0x00800#20 .pdeAccessed, .nextPhase] },
      by cases b <;> decide, rfl, rfl, by cases b <;> rfl, by cases b <;> decide, by cases b <;> decide, by cases b <;> decide,
      by decide⟩⟩

/-- The invariant in IDLE and in INVAL, the one phase with a pending invalidation, and a step from each. -/
theorem witness_Invariant : (s0.Inv ∧ ∃ t, step s0 = .next t)
    ∧ ∃ s t : State, s.Inv ∧ s.ph = .inval ∧ step s = .next t :=
  ⟨⟨⟨by decide, by decide, by decide, trivial, by decide⟩, _, rfl⟩,
    { s0 with ph := .inval, invPending := true }, _, ⟨by decide, by decide, by decide, rfl, by decide⟩, rfl, rfl⟩

/-- An operation in progress, with no action waiting, that runs out. -/
theorem witness_RunsOut : ∃ s t : State, s.inputs = [] ∧ s.ph ≠ .idle ∧ Host.Core.run core 5 s = .next t :=
  ⟨{ s1 with ph := .check (.query .getPhys 0x00800123#32) }, _, rfl, by decide, rfl⟩

/-- A slot that a segment register was loaded from, and one that none was. -/
theorem witness_DescriptorMark : (∃ s : State, s.inputs = [.cpuMarkDescriptor 1] ∧ LoadedFrom s 1)
    ∧ ∃ s : State, s.inputs = [.cpuMarkDescriptor 5] ∧ ¬ LoadedFrom s 5 := by
  refine ⟨⟨{ sLoaded with inputs := [.cpuMarkDescriptor 1] }, rfl, ?_⟩, { sLoaded with inputs := [.cpuMarkDescriptor 5] }, rfl, ?_⟩
  all_goals rw [← loadedFrom_iff]; decide

theorem witness_BootOrder : ∃ s : State, s.ph = .idle ∧ s.cfg.kernelCs = 0x0008#16 ∧ s.cfg.kernelDs = 0x0010#16
    ∧ s.a0.getLsbD 0 = true
    ∧ s.inputs = [.issue 0x02#8, .issue 0x03#8, .issue 0x30#8, .writePort .a0 0x00800000#32, .issue 0x33#8]
    ∧ isBacked s.cfg (pdeAddrIn (alignPage s.cfg.bootPageDirectory) 0x00800000#32) = true
    ∧ wordAt s.mem (pdeAddrIn (alignPage s.cfg.bootPageDirectory) 0x00800000#32) = some 0x00102003#32
    ∧ (0x00102003#32 : Word).getLsbD 0 = true ∧ isBacked s.cfg (pteAddr 0x00102003#32 0x00800000#32) = true
    ∧ wordAt s.mem (pteAddr 0x00102003#32 0x00800000#32) = some 0x00001003#32 ∧ (0x00001003#32 : Word).getLsbD 0 = true :=
  ⟨{ s1 with bound := false, a0 := 1#32,
             inputs := [.issue 0x02#8, .issue 0x03#8, .issue 0x30#8, .writePort .a0 0x00800000#32, .issue 0x33#8] }, rfl, rfl,
    rfl, by decide, rfl, by decide, by decide, by decide, by decide, by decide, by decide⟩

end Sys2Proof.Tests
end

namespace Sys2Proof.Machine

open Sys2Proof

/-! ## The invariant of every step (00_scope.md R6, 10_state.md R17, 44_paging_manager.md R182)

First what an outcome ensures, then one rule for each update of the state, then the phases, the operations and the outside
actions, each by the rules of what it is made of. -/

/-! ### What an outcome ensures -/

/-- If the computation answers a value, the value satisfies `P`; a stop ensures anything. -/
def Ensures {α : Type} (P : α → Prop) : Res α → Prop
  | .next a => P a
  | .fault _ => True
  | .refused _ => True

/-- `Ensures` in the model's own terms. -/
theorem ensures_iff {α : Type} {P : α → Prop} {r : Res α} : Ensures P r ↔ ∀ a, r = .next a → P a := by
  cases r <;> simp [Ensures]

theorem Ensures.imp {α : Type} {P Q : α → Prop} {r : Res α} (h : Ensures P r) (hPQ : ∀ a, P a → Q a) : Ensures Q r :=
  ensures_iff.2 fun a ha => hPQ a (ensures_iff.1 h a ha)

theorem Ensures.andThen {α β : Type} {P : α → Prop} {Q : β → Prop} {r : Res α} {f : α → Res β} (h : Ensures P r)
    (hf : ∀ a, P a → Ensures Q (f a)) : Ensures Q (andThen r f) := by
  cases r with
  | next a => exact hf a h
  | fault e => trivial
  | refused e => trivial

/-- A computation goes on from whatever its first part answers. -/
theorem Ensures.andThen_any {α β : Type} {Q : β → Prop} {r : Res α} {f : α → Res β} (hf : ∀ a, Ensures Q (f a)) :
    Ensures Q (Machine.andThen r f) :=
  .andThen (P := fun _ => True) (ensures_iff.2 fun _ _ => trivial) fun a _ => hf a

theorem Ensures.whenIdle {P : State → Prop} {s : State} {r : Res State} (h : s.ph = .idle → Ensures P r) :
    Ensures P (whenIdle s r) := by
  by_cases hp : s.ph = .idle
  · rw [whenIdle_idle hp]
    exact h hp
  · rw [whenIdle_busy hp]
    trivial

/-! ### The invariant's parts -/

section Invariant

variable {s : State}

theorem State.Inv.mem_wf (h : s.Inv) : Memory.wf s.mem = true := h.1

theorem State.Inv.tlb_wf (h : s.Inv) : Tlb.wf s.tlb = true := h.2.1

theorem State.Inv.invPending_iff (h : s.Inv) : s.invPending = true ↔ s.ph = .inval := h.2.2.1

theorem State.Inv.phaseSound (h : s.Inv) : phaseSound s := h.2.2.2.1

theorem State.Inv.cfg_wf (h : s.Inv) : s.cfg.wf = true := h.2.2.2.2

/-- Past CHECK the manager is bound (R182). -/
theorem State.Inv.bound_of_rdPde {op : MgrOp} (h : s.Inv) (hp : s.ph = .rdPde op) : s.bound = true := by
  simpa [Machine.phaseSound, hp] using h.phaseSound

theorem State.Inv.sound_of_wrPde {m : MapArgs} {pde : Word} (h : s.Inv) (hp : s.ph = .wrPde m pde) :
    s.bound = true ∧ entryP pde = true := by
  simpa [Machine.phaseSound, hp] using h.phaseSound

theorem State.Inv.sound_of_rdPte {k : QueryKind} {v pde : Word} (h : s.Inv) (hp : s.ph = .rdPte k v pde) :
    s.bound = true ∧ entryP pde = true := by
  simpa [Machine.phaseSound, hp] using h.phaseSound

theorem State.Inv.sound_of_wrPte {v pde e : Word} (h : s.Inv) (hp : s.ph = .wrPte v pde e) :
    s.bound = true ∧ entryP pde = true := by
  simpa [Machine.phaseSound, hp] using h.phaseSound

/-! ### One rule for each update of the state

The ports, the inputs, the GDT, GDTR, the segment registers, CR3 and `ret` are in no part of the invariant. -/

theorem State.Inv.setInputs (h : s.Inv) (l : List Input) : (s.setInputs l).Inv := h

theorem State.Inv.setOp (h : s.Inv) (code : Byte) : (s.setOp code).Inv := h

theorem State.Inv.setPort (h : s.Inv) (p : OperandPort) (v : Word) : (s.setPort p v).Inv := by
  cases p <;> exact h

theorem State.Inv.setResults (h : s.Inv) (y0 y1 : Option Word) (ok : Option Bool) : (s.setResults y0 y1 ok).Inv := h

theorem State.Inv.setGdt (h : s.Inv) (g : Vector Descriptor 6) : (s.setGdt g).Inv := h

theorem State.Inv.setGdtr (h : s.Inv) (limit : Half) (base : Word) : (s.setGdtr limit base).Inv := h

theorem State.Inv.setSegs (h : s.Inv) (r : SegRegs) : (s.setSegs r).Inv := h

theorem State.Inv.setCr3 (h : s.Inv) (v : Word) : (s.setCr3 v).Inv := h

theorem State.Inv.setRet (h : s.Inv) (v : Word) : (s.setRet v).Inv := h

theorem State.Inv.setMem (h : s.Inv) {m : Memory} (hm : Memory.wf m = true) : (s.setMem m).Inv :=
  ⟨hm, h.tlb_wf, h.invPending_iff, h.phaseSound, h.cfg_wf⟩

theorem State.Inv.setTlb (h : s.Inv) {l : Tlb} (hl : Tlb.wf l = true) (tick : Nat) : (s.setTlb l tick).Inv :=
  ⟨h.mem_wf, hl, h.invPending_iff, h.phaseSound, h.cfg_wf⟩

/-- Binding the manager makes every phase's demand of a bound manager true. -/
theorem State.Inv.bind (h : s.Inv) (dir : PageNumber) : (s.bind dir).Inv := by
  have hs := h.phaseSound
  refine ⟨h.mem_wf, h.tlb_wf, h.invPending_iff, ?_, h.cfg_wf⟩
  cases hp : s.ph <;> simp_all [Machine.phaseSound]

/-- Outside INVAL nothing is pending, so any phase but INVAL may follow, if it is sound. -/
theorem State.Inv.setPhase (h : s.Inv) (hs : s.ph ≠ .inval) {p : Phase} (hp : p ≠ .inval)
    (hsound : Machine.phaseSound (s.setPhase p)) : (s.setPhase p).Inv := by
  have hpend : s.invPending ≠ true := fun e => hs (h.invPending_iff.1 e)
  exact ⟨h.mem_wf, h.tlb_wf, iff_of_false hpend hp, hsound, h.cfg_wf⟩

/-- The end of an operation whose last phase is not INVAL. -/
theorem State.Inv.setPhase_idle (h : s.Inv) (hs : s.ph ≠ .inval) : (s.setPhase .idle).Inv :=
  h.setPhase hs (by simp) trivial

/-- The entry into INVAL: the record becomes pending in the same phase (R17). -/
theorem State.Inv.enterInval (h : s.Inv) (hb : s.bound = true) (v : Word) : ((s.setPending true v).setPhase .inval).Inv :=
  ⟨h.mem_wf, h.tlb_wf, by simp, hb, h.cfg_wf⟩

/-- The end of INVAL: the record is cleared in the same phase (R17). -/
theorem State.Inv.leaveInval (h : s.Inv) (v : Word) : (succeedOp (s.setPending false v)).Inv :=
  ⟨h.mem_wf, h.tlb_wf, by simp, trivial, h.cfg_wf⟩

/-! ### The CPU's acts on its TLB -/

theorem State.Inv.cpuTurn (h : s.Inv) : (cpuTurn s).Inv := h.setTlb (cpuTurn_keeps_tlb_wf s h.tlb_wf) _

theorem State.Inv.invalidatePage (h : s.Inv) (v : Word) : (invalidatePage s v).Inv :=
  h.setTlb (Store.rising_del _ s.tlb 0 _ h.tlb_wf) _

theorem State.Inv.flushTlb (h : s.Inv) : (flushTlb s).Inv := h.setTlb (Store.rising_keep _ _ s.tlb 0 h.tlb_wf) _

/-! ### Memory writes -/

theorem writeWord_ensures_inv (h : s.Inv) {pa : Word} (ha : pa.toNat % 4 = 0) (v : Word) :
    Ensures (fun t => t.Inv ∧ t.ph = s.ph ∧ t.bound = s.bound) (writeWord s pa v) := by
  rw [ensures_iff]
  intro t ht
  obtain ⟨-, rfl⟩ := (writeWord_eq_next s t pa v).1 ht
  exact ⟨h.setMem (putWord_keeps_wf _ pa v h.mem_wf ha), rfl, rfl⟩

theorem writeByte_ensures_inv (h : s.Inv) (pa : Word) (v : Byte) : Ensures State.Inv (writeByte s pa v) := by
  unfold writeByte
  split
  · exact h.setMem (put_keeps_wf _ _ v h.mem_wf pa.isLt)
  · trivial

/-- The CPU's walk reads aligned addresses (R43, R228). -/
theorem pdeAddrIn_cpuDir_mod_four (s : State) (v : Word) : (pdeAddrIn (cpuDir s) v).toNat % 4 = 0 := by
  have hdir : (cpuDir s).toNat = s.cr3.toNat / 4096 * 4096 := toNat_and_frameMask s.cr3
  have hfour : (4#32 : Word).toNat = 4 := rfl
  simp only [pdeAddrIn, BitVec.toNat_add, BitVec.toNat_mul, hdir, hfour]
  omega

/-- What marking an entry does: nothing, or one word write at the entry. -/
theorem markEntry_cases (s : State) (pa bits : Word) :
    markEntry s pa bits = s ∨ ∃ e, markEntry s pa bits = s.setMem (putWord s.mem pa e) := by
  unfold markEntry
  split
  · split
    · exact .inr ⟨_, rfl⟩
    · exact .inl rfl
  · exact .inl rfl

/-- What the CPU's update of an entry does (R53): nothing, or the mark of one aligned entry. -/
theorem cpuMarks_cases (s : State) (n : PageNumber) (m : CpuMark) :
    cpuMarks s n m = s ∨ ∃ pa bits, pa.toNat % 4 = 0 ∧ cpuMarks s n m = markEntry s pa bits := by
  cases m with
  | pdeAccessed => exact .inr ⟨_, _, pdeAddrIn_cpuDir_mod_four s _, rfl⟩
  | pteAccessed | pteDirty =>
    simp only [cpuMarks]
    split
    · split
      · exact .inr ⟨_, _, pteAddr_mod_four _ _, rfl⟩
      · exact .inl rfl
    · exact .inl rfl

theorem State.Inv.cpuMarks (h : s.Inv) (n : PageNumber) (m : CpuMark) : (cpuMarks s n m).Inv := by
  obtain heq | ⟨pa, bits, ha, heq⟩ := cpuMarks_cases s n m
  · rwa [heq]
  · rw [heq]
    obtain heq | ⟨e, heq⟩ := markEntry_cases s pa bits
    · rwa [heq]
    · rw [heq]
      exact h.setMem (putWord_keeps_wf _ pa e h.mem_wf ha)

theorem State.Inv.markDescriptor (h : s.Inv) (slot : Fin 6) : (markDescriptor s slot).Inv := by
  obtain ⟨-, heq⟩ | ⟨-, heq⟩ := markDescriptor_cases s slot
  · rwa [heq]
  · rw [heq]
    exact h.setGdt _

/-! ### The phases -/

/-- A failure ends the operation in IDLE, from any phase but INVAL. -/
theorem State.Inv.failOp (h : s.Inv) (hs : s.ph ≠ .inval) : (failOp s).Inv := (h.setResults _ _ _).setPhase_idle hs

theorem phaseCheck_ensures_inv {op : MgrOp} (h : s.Inv) (hp : s.ph = .check op) : Ensures State.Inv (phaseCheck op s) := by
  unfold phaseCheck
  split
  · rename_i hb
    exact h.setPhase (by simp [hp]) (by simp) hb
  · exact h.failOp (by simp [hp])

/-- RD_PDE goes on only from a present PDE, which is what the next phase's soundness asks for. -/
theorem phaseRdPde_ensures_inv {op : MgrOp} (h : s.Inv) (hp : s.ph = .rdPde op) :
    Ensures State.Inv (phaseRdPde op s) := by
  refine .andThen_any fun pde => ?_
  split
  · rename_i hpde
    have hsound : s.bound = true ∧ entryP pde = true := ⟨h.bound_of_rdPde hp, hpde⟩
    cases op <;> exact h.setPhase (by simp [hp]) (by simp) hsound
  · exact h.failOp (by simp [hp])

theorem phaseWrPde_ensures_inv {m : MapArgs} {pde : Word} (h : s.Inv) (hp : s.ph = .wrPde m pde) :
    Ensures State.Inv (phaseWrPde m pde s) := by
  refine (writeWord_ensures_inv h (pdeAddr_mod_four s m.virt) _).andThen ?_
  rintro t ⟨ht, hph, hbound⟩
  have hsound : t.bound = true ∧ entryP pde = true := by
    rw [hbound]
    exact h.sound_of_wrPde hp
  exact ht.setPhase (by simp [hph, hp]) (by simp) hsound

theorem phaseRdPte_ensures_inv {k : QueryKind} {v pde : Word} (h : s.Inv) (hp : s.ph = .rdPte k v pde) :
    Ensures State.Inv (phaseRdPte k v pde s) := by
  have hs : s.ph ≠ .inval := by simp [hp]
  refine .andThen_any fun pte => ?_
  split
  · cases k with
    | unmap => exact h.setPhase hs (by simp) (h.sound_of_rdPte hp)
    | getPhys | isMapped => exact (h.setResults _ _ _).setPhase_idle hs
  · exact h.failOp hs

theorem phaseWrPte_ensures_inv {v pde e : Word} (h : s.Inv) (hp : s.ph = .wrPte v pde e) :
    Ensures State.Inv (phaseWrPte v pde e s) := by
  refine (writeWord_ensures_inv h (pteAddr_mod_four pde v) e).andThen ?_
  rintro t ⟨ht, -, hbound⟩
  exact ht.enterInval (hbound.trans (h.sound_of_wrPte hp).1) v

theorem phaseInval_ensures_inv (h : s.Inv) : Ensures State.Inv (phaseInval s) := by
  unfold phaseInval
  split
  · exact (h.invalidatePage _).leaveInval _
  · trivial

theorem phaseLgdt_ensures_inv (h : s.Inv) (hp : s.ph = .lgdt) : Ensures State.Inv (phaseLgdt s) :=
  (h.setGdtr _ _).setPhase (by simp [hp]) (by simp) trivial

theorem reloadSegs_ensures_inv (h : s.Inv) : Ensures (fun t => t.Inv ∧ t.ph = s.ph) (reloadSegs s) := by
  unfold reloadSegs
  split
  · exact ⟨h.setSegs _, rfl⟩
  · trivial

theorem phaseReload_ensures_inv (h : s.Inv) (hp : s.ph = .reload) : Ensures State.Inv (phaseReload s) := by
  refine (reloadSegs_ensures_inv h).andThen ?_
  rintro t ⟨ht, hph⟩
  exact ht.setPhase_idle (by simp [hph, hp])

theorem phaseAction_ensures_inv (h : s.Inv) : Ensures State.Inv (phaseAction s) := by
  unfold phaseAction
  split
  next => exact h
  next hp => exact phaseCheck_ensures_inv h hp
  next hp => exact phaseRdPde_ensures_inv h hp
  next hp => exact phaseWrPde_ensures_inv h hp
  next hp => exact phaseRdPte_ensures_inv h hp
  next hp => exact phaseWrPte_ensures_inv h hp
  next => exact phaseInval_ensures_inv h
  next hp => exact phaseLgdt_ensures_inv h hp
  next hp => exact phaseReload_ensures_inv h hp

theorem phaseStep_ensures_inv (h : s.Inv) : Ensures State.Inv (phaseStep s) :=
  (phaseAction_ensures_inv h).andThen fun _ ht => ht.cpuTurn

theorem runPhases_ensures_inv (n : Nat) (h : s.Inv) : Ensures State.Inv (runPhases n s) := by
  induction n generalizing s with
  | zero => exact h
  | succ n ih =>
    by_cases hp : s.ph = .idle
    · rw [runPhases_idle _ _ hp]
      exact h
    · rw [runPhases_succ _ _ hp]
      exact (phaseStep_ensures_inv h).andThen fun _ ht => ih ht

theorem continueBlock_ensures_inv (h : s.Inv) : Ensures State.Inv (continueBlock s) := by
  by_cases hp : s.ph = .idle
  · rw [continueBlock_idle s hp]
    exact h.cpuTurn
  · rw [continueBlock_busy s hp]
    exact phaseStep_ensures_inv h

/-! ### The operations, issued in IDLE -/

/-- An operation that leaves IDLE goes to CHECK or to LGDT (R182, R128). -/
theorem firstPhase_cases {i : Instr} {p : Phase} (hi : firstPhase i = some p) : (∃ op, p = .check op) ∨ p = .lgdt := by
  cases i with
  | loadGdt r =>
    cases r with
    | null => cases hi
    | table => cases hi; exact .inr rfl
  | mapPage | unmapPage | getPhys | isMapped => cases hi; exact .inl ⟨_, rfl⟩
  | _ => cases hi

theorem State.Inv.enterCheck (h : s.Inv) (hs : s.ph = .idle) (op : MgrOp) : ((resultNone s).setPhase (.check op)).Inv :=
  (h.setResults _ _ _).setPhase (by simp [hs]) (by simp) trivial

theorem State.Inv.enterLgdt (h : s.Inv) (hs : s.ph = .idle) : ((resultNone s).setPhase .lgdt).Inv :=
  (h.setResults _ _ _).setPhase (by simp [hs]) (by simp) trivial

theorem runManager_ensures_inv (op : MgrOp) (h : s.Inv) (hs : s.ph = .idle) : Ensures State.Inv (runManager op s) :=
  runPhases_ensures_inv 5 (h.enterCheck hs op)

theorem execInitGdt_ensures_inv (r : TableRef) (h : s.Inv) : Ensures State.Inv (execInitGdt r s) := by
  cases r with
  | null => exact h.setResults _ _ _
  | table => exact (h.setGdt _).setResults _ _ _

theorem execLoadGdt_ensures_inv (r : TableRef) (h : s.Inv) (hs : s.ph = .idle) :
    Ensures State.Inv (execLoadGdt r s) := by
  cases r with
  | null => exact h.setResults _ _ _
  | table => exact runPhases_ensures_inv 2 (h.enterLgdt hs)

theorem execPWrCr3_ensures_inv (phys : Word) (h : s.Inv) : Ensures State.Inv (execPWrCr3 phys s) := by
  unfold execPWrCr3
  split
  · exact (h.setCr3 phys).flushTlb
  · trivial

theorem exec_ensures_inv (i : Instr) (h : s.Inv) (hs : s.ph = .idle) : Ensures State.Inv (exec i s) := by
  cases i with
  | encDesc | encPde | decPde | encPte | decPte | v2p | p2v | dirIdx | tblIdx | pgOff | frameAddr =>
    exact h.setResults _ _ _
  | initGdt r => exact execInitGdt_ensures_inv r h
  | loadGdt r => exact execLoadGdt_ensures_inv r h hs
  | initRt => exact (h.bind _).setResults _ _ _
  | mapPage | unmapPage | getPhys | isMapped => exact runManager_ensures_inv _ h hs
  | pLgdt limit base => exact h.setGdtr limit base
  | pReloadSegs => exact (reloadSegs_ensures_inv h).imp fun _ ht => ht.1
  | pInvlpg virt => exact h.invalidatePage virt
  | pFlushTlb => exact h.flushTlb
  | pRdCr3 => exact h.setRet _
  | pWrCr3 phys => exact execPWrCr3_ensures_inv phys h

theorem beginOp_ensures_inv (i : Instr) (h : s.Inv) (hs : s.ph = .idle) : Ensures State.Inv (beginOp i s) := by
  unfold beginOp
  split
  next hi =>
    obtain ⟨op, rfl⟩ | rfl := firstPhase_cases hi
    · exact h.enterCheck hs op
    · exact h.enterLgdt hs
  next => exact exec_ensures_inv i h hs

theorem runDecoded_ensures_inv (d : Except DecodeError Instr) (h : s.Inv) (hs : s.ph = .idle) :
    Ensures State.Inv (runDecoded d s) := by
  cases d with
  | ok i => exact exec_ensures_inv i h hs
  | error e => trivial

theorem beginDecoded_ensures_inv (d : Except DecodeError Instr) (h : s.Inv) (hs : s.ph = .idle) :
    Ensures State.Inv (beginDecoded d s) := by
  cases d with
  | ok i => exact beginOp_ensures_inv i h hs
  | error e => trivial

/-! ### The actions of the agents outside the block, and the step -/

theorem takeInput_ensures_inv (i : Input) (h : s.Inv) : Ensures State.Inv (takeInput i s) := by
  cases i with
  | writePort p v => exact .whenIdle fun _ => h.setPort p v
  | issue code => exact .whenIdle fun hs => runDecoded_ensures_inv _ (h.setOp code) hs
  | issueStepwise code => exact .whenIdle fun hs => beginDecoded_ensures_inv _ (h.setOp code) hs
  | nextPhase => exact runPhases_ensures_inv 1 h
  | readPort p =>
    refine .whenIdle fun _ => ?_
    split
    · exact h
    · trivial
  | primitive c => exact .whenIdle fun hs => runDecoded_ensures_inv _ h hs
  | storeByte pa v => exact .whenIdle fun _ => writeByte_ensures_inv h pa v
  | writeGdt slot d => exact .whenIdle fun _ => h.setGdt _
  | loadCr3 v => exact .whenIdle fun _ => h.setCr3 v
  | cpuMark n m => exact h.cpuMarks n m
  | cpuMarkDescriptor slot => exact h.markDescriptor slot

theorem step_ensures_inv (h : s.Inv) : Ensures State.Inv (step s) := by
  cases hin : s.inputs with
  | nil =>
    rw [step_no_input s hin]
    exact continueBlock_ensures_inv h
  | cons i rest =>
    rw [step_input s i rest hin]
    exact takeInput_ensures_inv i (h.setInputs rest).cpuTurn

end Invariant

/-- Settles O57: a step is made of updates that each keep the invariant, but for the two ends of INVAL, where the phase and
the pending record change together. -/
theorem everyStepKeepsTheInvariant : Obligations.EveryStepKeepsTheInvariant :=
  fun _ t h ht => ensures_iff.1 (step_ensures_inv h) t ht

end Sys2Proof.Machine

namespace Sys2Proof.Machine

open Sys2Proof

/-! ## The state, the ports and the host's actions (10_state.md) -/

/-! ### Ignored port bits (10_state.md R12, 30_encoding.md R94) -/

/-- Two ports that agree on their low `n` bits carry one operand of `n` bits. -/
theorem setWidth_congr {w v : Word} {n : Nat} (h : w.toNat % 2 ^ n = v.toNat % 2 ^ n) : w.setWidth n = v.setWidth n := by
  apply BitVec.eq_of_toNat_eq
  simpa only [BitVec.toNat_setWidth] using h

theorem word_congr {w v : Word} (h : w.toNat % 2 ^ 32 = v.toNat % 2 ^ 32) : w = v := by
  simpa using setWidth_congr h

/-- A table reference is one bit of its port (R90, format T1). -/
theorem tableRefOf_congr {w v : Word} (h : w.toNat % 2 ^ 1 = v.toNat % 2 ^ 1) : tableRefOf w = tableRefOf v := by
  have hbit : w.getLsbD 0 = v.getLsbD 0 := by simpa using congrArg (·.getLsbD 0) (setWidth_congr h)
  rw [tableRefOf, tableRefOf, hbit]

/-- Two commands agree on the given number of low bits of each port. -/
def PortsAgree (c d : Command) : Nat × Nat × Nat × Nat → Prop
  | (n0, n1, n2, n3) => c.a0.toNat % 2 ^ n0 = d.a0.toNat % 2 ^ n0 ∧ c.a1.toNat % 2 ^ n1 = d.a1.toNat % 2 ^ n1
    ∧ c.a2.toNat % 2 ^ n2 = d.a2.toNat % 2 ^ n2 ∧ c.a3.toNat % 2 ^ n3 = d.a3.toNat % 2 ^ n3

/-- The operands of a row are taken from the port bits of its format alone (R90). -/
theorem instrOf_congr {o : Opcode} {c d : Command} (h : PortsAgree c d (formatOfRow o).portWidths) :
    instrOf o c = instrOf o d := by
  cases o with
  | encDesc =>
    obtain ⟨h0, h1, h2, h3⟩ := h
    simp only [instrOf, byteOf, word_congr h0, word_congr h1, setWidth_congr h2, setWidth_congr h3]
  | initGdt | loadGdt =>
    obtain ⟨h0, -⟩ := h
    simp only [instrOf, tableRefOf_congr h0]
  | encPde | encPte =>
    obtain ⟨h0, h1, -⟩ := h
    simp only [instrOf, flagsOf, word_congr h0, setWidth_congr h1]
  | decPde | decPte | v2p | p2v | dirIdx | tblIdx | pgOff | frameAddr | unmapPage | getPhys | isMapped | pInvlpg
  | pWrCr3 =>
    obtain ⟨h0, -⟩ := h
    simp only [instrOf, word_congr h0]
  | initRt | pReloadSegs | pFlushTlb | pRdCr3 => rfl
  | mapPage =>
    obtain ⟨h0, h1, h2, h3⟩ := h
    simp only [instrOf, flagsOf, word_congr h0, word_congr h1, setWidth_congr h2, setWidth_congr h3]
  | pLgdt =>
    obtain ⟨h0, h1, -⟩ := h
    simp only [instrOf, halfOf, setWidth_congr h0, word_congr h1]

/-- Settles O3: one code selects one row, and the row's operands see the port bits of its format alone. -/
theorem ignoredPortBitsNeverMatter : Obligations.IgnoredPortBitsNeverMatter := by
  unfold Obligations.IgnoredPortBitsNeverMatter
  intro c d f n0 n1 n2 n3 hop hf hw h0 h1 h2 h3
  obtain ⟨o, ho, rfl⟩ := Option.map_eq_some_iff.1 hf
  have hagree : PortsAgree c d (formatOfRow o).portWidths := by
    rw [hw]
    exact ⟨h0, h1, h2, h3⟩
  simp only [decode, ← hop, ho, instrOf_congr hagree]

/-! ### The step of an action of the host (R10, R11, R14) -/

/-- The CPU's turn with which a step that takes an action begins, field by field (R23; log 6). -/
theorem cpuTurn_setInputs (s : State) (rest : List Input) : cpuTurn (s.setInputs rest) =
    { s with inputs := rest, tlb := tlbActs s s.tlb (Config.cpuActs s.cpuTick), cpuTick := s.cpuTick + 1 } := by
  have htlb : (cpuTurn (s.setInputs rest)).tlb = tlbActs s s.tlb (Config.cpuActs s.cpuTick) :=
    cpuTurn_tlb_of rfl rfl rfl rfl rfl
  rw [← htlb]
  rfl

/-- Settles O6: in IDLE the host's guard lets the issue through, and the command is the code written and the ports. -/
theorem stepRunsTheIssuedOperation : Obligations.StepRunsTheIssuedOperation := by
  unfold Obligations.StepRunsTheIssuedOperation
  intro s code rest i hin hidle hdec
  have hcmd : decodeOperation ((cpuTurn (s.setInputs rest)).setOp code).command = .ok i := hdec
  rw [step_input s _ rest hin, takeInput, whenIdle_idle (by simpa using hidle), hcmd, runDecoded, cpuTurn_setInputs]
  rfl

/-- Settles O10: every action of the host stands behind the guard of R14. -/
theorem hostActionsOutsideIdleAreRefused : Obligations.HostActionsOutsideIdleAreRefused := by
  unfold Obligations.HostActionsOutsideIdleAreRefused
  intro s i rest hin hmark hdescriptor hphase hbusy
  have hbusy' : (cpuTurn (s.setInputs rest)).ph ≠ .idle := by simpa using hbusy
  rw [step_input s i rest hin]
  cases i with
  | writePort | issue | issueStepwise | readPort | primitive | storeByte | writeGdt | loadCr3 => exact whenIdle_busy hbusy' _
  | nextPhase => exact absurd rfl hphase
  | cpuMark n m => exact absurd rfl (hmark n m)
  | cpuMarkDescriptor k => exact absurd rfl (hdescriptor k)

/-- The host's read of a port in IDLE (R13; log 14). -/
theorem step_readPort {s : State} {p : ResultPort} {rest : List Input} (hin : s.inputs = .readPort p :: rest)
    (hidle : s.ph = .idle) :
    step s = if portHoldsValue s p then .next (cpuTurn (s.setInputs rest)) else .fault .noValue := by
  rw [step_input s _ rest hin, takeInput, whenIdle_idle (by simpa using hidle)]
  cases p <;> rfl

theorem step_readPort_of_noValue {s : State} {p : ResultPort} {rest : List Input} (hin : s.inputs = .readPort p :: rest)
    (hidle : s.ph = .idle) (hp : portHoldsValue s p = false) : step s = .fault .noValue := by
  simp [step_readPort hin hidle, hp]

/-- A read of a port that holds a value leaves the step's one turn of the CPU and nothing else. -/
theorem step_readPort_of_holdsValue {s : State} {p : ResultPort} {rest : List Input} (hin : s.inputs = .readPort p :: rest)
    (hidle : s.ph = .idle) (hp : portHoldsValue s p = true) :
    ∃ t, step s = .next t ∧ t = { s with inputs := rest, tlb := t.tlb, cpuTick := t.cpuTick } ∧ OnlyCpuActs s t :=
  ⟨cpuTurn (s.setInputs rest), by rw [step_readPort hin hidle, if_pos hp], rfl, .turn s rest⟩

/-- Settles O11: the read asks whether the port holds a value, and a port is an option. -/
theorem readingAPortWithoutAValueFaults : Obligations.ReadingAPortWithoutAValueFaults := by
  unfold Obligations.ReadingAPortWithoutAValueFaults
  intro s rest hidle
  refine ⟨fun hin hnone => step_readPort_of_noValue hin hidle (by simp [portHoldsValue, hnone]),
    fun hin hnone => step_readPort_of_noValue hin hidle (by simp [portHoldsValue, hnone]),
    fun hin hnone => step_readPort_of_noValue hin hidle (by simp [portHoldsValue, hnone]), ?_⟩
  rintro (⟨hin, hsome⟩ | ⟨hin, hsome⟩ | ⟨hin, hsome⟩) <;>
    exact step_readPort_of_holdsValue hin hidle (Option.isSome_iff_ne_none.2 hsome)

/-- An operand port's write, field by field (R11). -/
theorem State.setPort_eq (s : State) (p : OperandPort) (v : Word) : s.setPort p v =
    { s with a0 := if p = .a0 then v else s.a0, a1 := if p = .a1 then v else s.a1,
             a2 := if p = .a2 then v else s.a2, a3 := if p = .a3 then v else s.a3 } := by
  cases p <;> rfl

/-- Settles O12: in IDLE the guard lets the action through, to the state the CPU's turn leaves. -/
theorem hostActionsChangeOnlyTheirTarget : Obligations.HostActionsChangeOnlyTheirTarget := by
  unfold Obligations.HostActionsChangeOnlyTheirTarget
  intro s u rest hidle hu
  have hstep : ∀ i, s.inputs = i :: rest → step s = takeInput i u := by
    intro i hin
    rw [step_input s i rest hin, cpuTurn_setInputs, hu]
  have hguard : ∀ r : Res State, whenIdle u r = r := whenIdle_idle (by simpa [hu] using hidle)
  refine ⟨?_, ?_, ?_, ?_⟩
  · intro p v hin
    rw [hstep _ hin, takeInput, hguard, State.setPort_eq, hu]
  · intro slot d hin
    refine ⟨u.gdt.set slot d, ?_, ?_⟩
    · rw [hstep _ hin, takeInput, hguard]
      rfl
    · intro k hk
      simp [Vector.getElem_set, hu, eq_comm]
  · intro v hin
    rw [hstep _ hin, takeInput, hguard]
    rfl
  · intro pa v hin
    have hbacked : isBacked u.cfg pa = isBacked s.cfg pa := by rw [hu]
    have hwrite : step s = writeByte u pa v := by rw [hstep _ hin, takeInput, hguard]
    refine ⟨?_, ?_⟩
    · intro hb
      refine ⟨Store.put u.mem pa.toNat v, ?_, Store.get_put_self _ _ _, ?_⟩
      · rw [hwrite, writeByte, hbacked, if_pos hb]
        rfl
      · intro a ha
        rw [Store.get_put_ne _ _ ha.symm, hu]
    · intro hb
      rw [hwrite, writeByte, hbacked, if_neg (by simp [hb])]

/-! ### Reset (R25) -/

/-- Settles O58: the invariant's parts at reset, and the fields R25 gives. -/
theorem resetMeetsTheInvariantAndIsEmpty : Obligations.ResetMeetsTheInvariantAndIsEmpty := by
  unfold Obligations.ResetMeetsTheInvariantAndIsEmpty
  have hinv : State.reset.Inv := by
    have hpending : State.reset.invPending = true ↔ State.reset.ph = .inval := by simp [State.reset]
    have hcfg : State.reset.cfg.wf = true := by decide
    exact ⟨reset_mem_wf, reset_tlb_wf, hpending, trivial, hcfg⟩
  exact ⟨hinv, rfl, rfl, rfl, rfl, rfl, rfl, fun _ => rfl⟩

/-! ### What an instruction leaves alone (R12, R13, R16 to R21)

What each shared operation leaves; an instruction's own case then follows from the named updates of the state. -/

theorem runManager_frame {op : MgrOp} {s t : State} (h : runManager op s = .next t) : PhaseFrame s t :=
  have hstart : PhaseFrame s ((resultNone s).setPhase (.check op)) := by constructor <;> rfl
  hstart.trans (runPhases_frame 5 h)

theorem runManager_ends_idle {op : MgrOp} {s t : State} (h : runManager op s = .next t) : t.ph = .idle := by
  cases op with
  | map m =>
    obtain ⟨-, -, -, -, hph, -⟩ | ⟨-, -, -, -, -, hph, -⟩ := runManager_map_next h <;> exact hph
  | query k v =>
    obtain ⟨-, -, -, -, hph, -⟩ | ⟨-, -, -, -, -, hph, -⟩ := runManager_query_next h <;> exact hph

theorem runManager_keeps_gdtr_segs {op : MgrOp} {s t : State} (h : runManager op s = .next t) :
    t.gdtr = s.gdtr ∧ t.segs = s.segs := by
  cases op with
  | map m =>
    obtain ⟨-, -, -, -, -, -, -, hgdtr, hsegs⟩ | ⟨-, -, -, -, -, -, -, -, hgdtr, hsegs, -⟩ := runManager_map_next h <;>
      exact ⟨hgdtr, hsegs⟩
  | query k v =>
    obtain ⟨-, -, -, -, -, -, -, -, hgdtr, hsegs⟩ | ⟨-, -, -, -, -, -, hgdtr, -, hsegs, -⟩ := runManager_query_next h <;>
      exact ⟨hgdtr, hsegs⟩

/-- A manager operation issued with nothing pending ends with nothing pending (R17). -/
theorem runManager_invPending {op : MgrOp} {s t : State} (h : runManager op s = .next t) (hs : s.invPending = false) :
    t.invPending = false := by
  cases op with
  | map m =>
    obtain ⟨-, -, -, -, -, hpend, -⟩ | ⟨-, -, -, -, -, -, hpend, -⟩ := runManager_map_next h
    · exact hpend.trans hs
    · exact hpend
  | query k v =>
    obtain ⟨-, -, -, -, -, hpend, -⟩ | ⟨_, _, -, -, -, -, -, -, -, hkind⟩ := runManager_query_next h
    · exact hpend.trans hs
    · obtain ⟨-, -, hpend, -⟩ | ⟨-, -, hpend, -⟩ | ⟨-, -, hpend, -⟩ := hkind
      · exact hpend
      · exact hpend.trans hs
      · exact hpend.trans hs

/-- GET_PHYS and IS_MAPPED never touch the invalidation record (R17). -/
theorem runManager_query_record {k : QueryKind} {v : Word} {s t : State} (h : runManager (.query k v) s = .next t)
    (hk : k ≠ .unmap) : t.invPending = s.invPending ∧ t.invAddr = s.invAddr := by
  obtain ⟨-, -, -, -, -, hpend, haddr, -⟩ | ⟨_, _, -, -, -, -, -, -, -, hkind⟩ := runManager_query_next h
  · exact ⟨hpend, haddr⟩
  · obtain ⟨hunmap, -⟩ | ⟨-, -, hpend, haddr, -⟩ | ⟨-, -, hpend, haddr, -⟩ := hkind
    · exact absurd hunmap hk
    · exact ⟨hpend, haddr⟩
    · exact ⟨hpend, haddr⟩

/-- MAP_PAGE, UNMAP_PAGE and IS_MAPPED answer in `OK` alone (R15, R90). -/
theorem runManager_map_ports {m : MapArgs} {s t : State} (h : runManager (.map m) s = .next t) :
    t.y0 = none ∧ t.y1 = none ∧ t.ok.isSome = true := by
  obtain ⟨hok, hy0, hy1, -⟩ | ⟨-, -, hok, hy0, hy1, -⟩ := runManager_map_next h <;> simp [hok, hy0, hy1]

theorem runManager_query_ports {k : QueryKind} {v : Word} {s t : State} (h : runManager (.query k v) s = .next t)
    (hk : k ≠ .getPhys) : t.y0 = none ∧ t.y1 = none ∧ t.ok.isSome = true := by
  obtain ⟨hok, hy0, hy1, -⟩ | ⟨_, _, -, hok, hy1, -, -, -, -, hkind⟩ := runManager_query_next h
  · simp [hok, hy0, hy1]
  · obtain ⟨-, hy0, -⟩ | ⟨hget, -⟩ | ⟨-, hy0, -⟩ := hkind
    · simp [hok, hy0, hy1]
    · exact absurd hget hk
    · simp [hok, hy0, hy1]

/-- GET_PHYS answers an address exactly with `OK = 1` (R200). -/
theorem runManager_getPhys_ports {v : Word} {s t : State} (h : runManager (.query .getPhys v) s = .next t) :
    (t.ok = some true ∧ t.y0.isSome = true ∨ t.ok = some false ∧ t.y0 = none) ∧ t.y1 = none := by
  obtain ⟨hok, hy0, hy1, -⟩ | ⟨_, _, -, hok, hy1, -, -, -, -, hkind⟩ := runManager_query_next h
  · exact ⟨.inr ⟨hok, hy0⟩, hy1⟩
  · obtain ⟨hunmap, -⟩ | ⟨-, hy0, -⟩ | ⟨hmapped, -⟩ := hkind
    · cases hunmap
    · exact ⟨.inl ⟨hok, by simp [hy0]⟩, hy1⟩
    · cases hmapped

/-- LOAD_GDT completes early (R130), or with `GDTR` and the segment registers loaded (R126). -/
theorem execLoadGdt_next {r : TableRef} {s t : State} (h : execLoadGdt r s = .next t) :
    (r = .null ∧ t = resultNone s)
      ∨ (r = .table ∧ t = cpuTurn ((((cpuTurn (((resultNone s).setGdtr 0x002F#16 s.cfg.gdtLinearBase).setPhase
          .reload)).setSegs (reloadedSegs s.cfg s.gdt)).setPhase .idle))) := by
  cases r with
  | null =>
    cases h
    exact .inl ⟨rfl, rfl⟩
  | table =>
    rw [execLoadGdt_table] at h
    split at h
    · cases h
      exact .inr ⟨rfl, rfl⟩
    · cases h

/-- P_RELOAD_SEGS completes with the segment registers written (R221). -/
theorem reloadSegs_next {s t : State} (h : reloadSegs s = .next t) : t = s.setSegs (reloadedSegs s.cfg s.gdt) := by
  unfold reloadSegs at h
  split at h
  · cases h
    rfl
  · cases h

/-- P_WR_CR3 completes as a flush: CR3 already holds its operand (R226; log 11). -/
theorem execPWrCr3_next {phys : Word} {s t : State} (h : execPWrCr3 phys s = .next t) : t = flushTlb s := by
  unfold execPWrCr3 at h
  split at h
  · rename_i heq
    cases h
    rw [heq]
    rfl
  · cases h

/-- Settles O46: the manager's operations by the frame of the phase machine, every other by its one named update. -/
theorem registerFrameOfEveryInstruction : Obligations.RegisterFrameOfEveryInstruction := by
  unfold Obligations.RegisterFrameOfEveryInstruction
  intro s t i h
  cases i with
  | encDesc | encPde | decPde | encPte | decPte | v2p | p2v | dirIdx | tblIdx | pgOff | frameAddr | initRt | pLgdt | pInvlpg
  | pFlushTlb | pRdCr3 =>
    cases h
    simp
  | initGdt r => cases r <;> cases h <;> simp
  | loadGdt r => obtain ⟨rfl, rfl⟩ | ⟨rfl, rfl⟩ := execLoadGdt_next h <;> simp
  | mapPage | unmapPage =>
    have hf := runManager_frame h
    obtain ⟨hgdtr, hsegs⟩ := runManager_keeps_gdtr_segs h
    refine ⟨hf.cfg, hf.inputs, hf.op, hf.a0, hf.a1, hf.a2, hf.a3, hf.cr3, fun _ => ⟨hf.bound, hf.curDir⟩, fun _ => hf.gdt,
      fun _ _ => hgdtr, fun _ _ => hsegs, fun _ => hf.ret, ?_⟩
    simp
  | getPhys | isMapped =>
    have hf := runManager_frame h
    obtain ⟨hgdtr, hsegs⟩ := runManager_keeps_gdtr_segs h
    have hrecord := runManager_query_record h (by simp)
    exact ⟨hf.cfg, hf.inputs, hf.op, hf.a0, hf.a1, hf.a2, hf.a3, hf.cr3, fun _ => ⟨hf.bound, hf.curDir⟩, fun _ => hf.gdt,
      fun _ _ => hgdtr, fun _ _ => hsegs, fun _ => hf.ret, fun _ _ => hrecord⟩
  | pReloadSegs =>
    obtain rfl := reloadSegs_next h
    simp
  | pWrCr3 phys =>
    obtain rfl := execPWrCr3_next h
    simp

/-- Settles O47: the ports each instruction's own update gives, and the manager's by what its runs answer. -/
theorem resultPortsHoldExactlyTheirResults : Obligations.ResultPortsHoldExactlyTheirResults := by
  unfold Obligations.ResultPortsHoldExactlyTheirResults
  intro s t i h
  cases i with
  | encDesc | encPde | decPde | encPte | decPte | v2p | p2v | dirIdx | tblIdx | pgOff | frameAddr | initRt | pLgdt | pInvlpg
  | pFlushTlb | pRdCr3 =>
    cases h
    simp
  | initGdt r => cases r <;> cases h <;> simp
  | loadGdt r => obtain ⟨rfl, rfl⟩ | ⟨rfl, rfl⟩ := execLoadGdt_next h <;> simp
  | mapPage => exact runManager_map_ports h
  | unmapPage | isMapped => exact runManager_query_ports h (by simp)
  | getPhys => exact runManager_getPhys_ports h
  | pReloadSegs =>
    obtain rfl := reloadSegs_next h
    simp
  | pWrCr3 phys =>
    obtain rfl := execPWrCr3_next h
    simp

/-- Settles O48: an instruction that leaves IDLE is a manager operation or LOAD_GDT, and both come back. -/
theorem everyInstructionEndsInIdle : Obligations.EveryInstructionEndsInIdle := by
  unfold Obligations.EveryInstructionEndsInIdle
  intro s t i h hidle hpend
  cases i with
  | encDesc | encPde | decPde | encPte | decPte | v2p | p2v | dirIdx | tblIdx | pgOff | frameAddr | initRt | pLgdt | pInvlpg
  | pFlushTlb | pRdCr3 =>
    cases h
    exact ⟨hidle, hpend⟩
  | initGdt r => cases r <;> cases h <;> exact ⟨hidle, hpend⟩
  | loadGdt r => obtain ⟨rfl, rfl⟩ | ⟨rfl, rfl⟩ := execLoadGdt_next h <;> simp [hidle, hpend]
  | mapPage | unmapPage | getPhys | isMapped =>
    have hph := runManager_ends_idle h
    exact ⟨hph, runManager_invPending h hpend⟩
  | pReloadSegs =>
    obtain rfl := reloadSegs_next h
    exact ⟨hidle, hpend⟩
  | pWrCr3 phys =>
    obtain rfl := execPWrCr3_next h
    exact ⟨hidle, hpend⟩

/-! ### A page table shared by two PDEs (R22, 20_memory.md R47) -/

/-- Only a bound manager answers `OK = 1` (R182). -/
theorem bound_of_runManager_ok {op : MgrOp} {s t : State} (h : runManager op s = .next t) (hok : t.ok = some true) :
    s.bound = true := by
  by_contra hb
  rw [runManager_unbound op s (by simpa using hb)] at h
  cases h
  simp at hok

/-- A MAP_PAGE that answers `OK = 1` has written both entries, the PTE where there is memory (R188). -/
theorem runManager_map_ok {m : MapArgs} {s t : State} {pde : Word} (h : runManager (.map m) s = .next t)
    (hok : t.ok = some true) (hpde : wordAt s.mem (pdeAddr s m.virt) = some pde) :
    isBacked s.cfg (pteAddr pde m.virt) = true
      ∧ t.mem = putWord (putWord s.mem (pdeAddr s m.virt) (updatePde s.cfg.pdeFlagMask pde m.pdeFlags))
          (pteAddr pde m.virt) (packPte m.phys m.pteFlags) := by
  rw [runManager_bound _ _ (bound_of_runManager_ok h hok), andThen_eq_next] at h
  obtain ⟨e, hread, h⟩ := h
  obtain ⟨-, he⟩ := (readWord_eq_next _ _ _).1 hread
  obtain rfl : e = pde := Option.some.inj (he.symm.trans hpde)
  split at h
  · dsimp only at h
    rw [runPhases_wrPde] at h
    split at h
    · rw [runPhases_wrPte] at h
      split at h
      · rename_i hb
        cases h
        exact ⟨by simpa using hb, by simp⟩
      · cases h
    · cases h
  · cases h
    simp at hok

/-- GET_PHYS of a page whose two entries are there and present answers its address (R200). -/
theorem runManager_getPhys_mapped {v pde pte : Word} {s : State} (hb : s.bound = true)
    (hpde : readWord s (pdeAddr s v) = .next pde) (hp : entryP pde = true)
    (hpte : readWord s (pteAddr pde v) = .next pte) (hp' : entryP pte = true) :
    ∃ u, runManager (.query .getPhys v) s = .next u ∧ u.ok = some true
      ∧ u.y0 = some (frameAddress pte ||| pageOffset v) := by
  have hpte' : readWord (atRdPde (.query .getPhys v) s) (pteAddr pde v) = .next pte := hpte
  rw [runManager_bound _ _ hb, mgrVirt, hpde, andThen_next, if_pos hp]
  simp only [runPhases_rdPte, hpte', andThen_next, if_pos hp']
  exact ⟨_, rfl, rfl, rfl⟩

/-- Settles O44: MAP_PAGE's two writes leave the second PDE alone, and its walk ends at the PTE just written. -/
theorem sharedTableIsSeenThroughBothPdes : Obligations.SharedTableIsSeenThroughBothPdes := by
  unfold Obligations.SharedTableIsSeenThroughBothPdes
  intro s t v w phys pv pw pf tf hmap hok hpv hpw hpresent hbacked hframe htbl hpdes hpte htf
  have hphases := runManager_frame hmap
  obtain ⟨hpteBacked, hmem⟩ := runManager_map_ok hmap hok (by simpa using hpv)
  simp only [pdeAddr_alignPage, pteAddr_alignPage] at hpteBacked hmem
  have hpdeAt : pdeAddr t w = pdeAddr s w := pdeAddr_congr hphases.curDir w
  have hpteAt : pteAddr pw w = pteAddr pv v := by rw [pteAddr, pteAddr, hframe, htbl]
  have hreadPde : readWord t (pdeAddr t w) = .next pw := by
    rw [readWord_eq_next, hphases.cfg, hpdeAt, hmem,
      wordAt_putWord_ne _ _ _ _ (pteAddr_mod_four _ _) (pdeAddr_mod_four _ _) hpte,
      wordAt_putWord_ne _ _ _ _ (pdeAddr_mod_four _ _) (pdeAddr_mod_four _ _) hpdes.symm]
    exact ⟨hbacked, hpw⟩
  have hreadPte : readWord t (pteAddr pw w) = .next (packPte (alignPage phys) tf) := by
    rw [readWord_eq_next, hphases.cfg, hpteAt, hmem]
    exact ⟨hpteBacked, wordAt_putWord_self _ _ _⟩
  have hbound : t.bound = true := hphases.bound.trans (bound_of_runManager_ok hmap hok)
  obtain ⟨u, hu, huok, huy0⟩ := runManager_getPhys_mapped hbound hreadPde hpresent hreadPte (by simpa using htf)
  rw [frameAddress_packPte, alignPage_alignPage] at huy0
  exact ⟨u, hu, huok, huy0⟩

end Sys2Proof.Machine

namespace Sys2Proof.Machine

open Sys2Proof

/-! ## Physical memory under the manager and the CPU (20_memory.md) -/

/-! ### Entries that cannot be read or written (20_memory.md R42, R44, R45) -/

theorem readWord_of_unbacked {s : State} {pa : Word} (h : isBacked s.cfg pa = false) : readWord s pa = .refused .unbacked := by
  simp [readWord, h]

theorem readWord_of_unwritten {s : State} {pa : Word} (h : isBacked s.cfg pa = true) (hw : wordAt s.mem pa = none) :
    readWord s pa = .fault .unwrittenMemory := by
  simp [readWord, h, hw]

/-- Past a present PDE every operation uses the PTE: MAP_PAGE writes it, the others read it (R182). -/
theorem runManager_of_unbacked_pte {op : MgrOp} {s : State} {pde : Word} (hb : s.bound = true)
    (hpde : readWord s (pdeAddr s (mgrVirt op)) = .next pde) (hp : entryP pde = true)
    (hpte : isBacked s.cfg (pteAddr pde (mgrVirt op)) = false) : runManager op s = .refused .unbacked := by
  rw [runManager_bound _ _ hb, hpde, andThen_next, if_pos hp]
  cases op with
  | map m =>
    have hbacked : isBacked (atRdPde (.map m) s).cfg (pdeAddr (atRdPde (.map m) s) m.virt) = true :=
      ((readWord_eq_next _ _ _).1 hpde).1
    dsimp only
    rw [runPhases_wrPde, if_pos hbacked, runPhases_wrPte, if_neg]
    simpa [mgrVirt] using hpte
  | query k v =>
    have hread : readWord (atRdPde (.query k v) s) (pteAddr pde v) = .refused .unbacked := readWord_of_unbacked hpte
    dsimp only
    rw [runPhases_rdPte, hread, andThen_refused]

theorem runManager_query_of_unwritten_pte {k : QueryKind} {v : Word} {s : State} {pde : Word} (hb : s.bound = true)
    (hpde : readWord s (pdeAddr s v) = .next pde) (hp : entryP pde = true)
    (hpte : isBacked s.cfg (pteAddr pde v) = true) (hw : wordAt s.mem (pteAddr pde v) = none) :
    runManager (.query k v) s = .fault .unwrittenMemory := by
  have hread : readWord (atRdPde (.query k v) s) (pteAddr pde v) = .fault .unwrittenMemory := readWord_of_unwritten hpte hw
  rw [runManager_bound _ _ hb, mgrVirt, hpde, andThen_next, if_pos hp]
  dsimp only
  rw [runPhases_rdPte, hread, andThen_fault]

/-- The operations that read the PTE are the manager's queries of the operand itself (R182). -/
theorem exec_query {i : Instr} {virt : Word} (hi : i ∈ [Instr.unmapPage virt, .getPhys virt, .isMapped virt]) (s : State) :
    ∃ k, exec i s = runManager (.query k virt) s := by
  simp only [List.mem_cons, List.not_mem_nil, or_false] at hi
  obtain rfl | rfl | rfl := hi <;> exact ⟨_, rfl⟩

/-- Every operation that walks is the manager's, on the page of its operand (R182). -/
theorem exec_managerOp {i : Instr} {virt phys : Word} {pf tf : FlagsRecord}
    (hi : i ∈ [Instr.mapPage virt phys pf tf, .unmapPage virt, .getPhys virt, .isMapped virt]) (s : State) :
    ∃ op, exec i s = runManager op s ∧ pdeAddr s (mgrVirt op) = pdeAddr s virt
      ∧ ∀ pde, pteAddr pde (mgrVirt op) = pteAddr pde virt := by
  obtain rfl | hi := List.mem_cons.1 hi
  · exact ⟨_, rfl, pdeAddr_alignPage s virt, fun pde => pteAddr_alignPage pde virt⟩
  · obtain ⟨k, hk⟩ := exec_query hi s
    exact ⟨_, hk, rfl, fun _ => rfl⟩

/-- Settles O34: each stop is the first access of the walk that meets no memory, or, on a read, no value. -/
theorem unreachableDirectoryStops : Obligations.UnreachableDirectoryStops := by
  unfold Obligations.UnreachableDirectoryStops
  intro s virt phys pf tf hb
  refine ⟨fun i hi => ?_, fun i hi pde hbacked hpde hp hpte hw => ?_⟩
  · obtain ⟨op, hop, hpdeAt, hpteAt⟩ := exec_managerOp hi s
    simp only [hop, ← hpdeAt, ← hpteAt]
    refine ⟨fun hnone => ?_, fun hbacked hnone => ?_, fun pde hbacked hpde hp hpte => ?_⟩
    · rw [runManager_bound _ _ hb, readWord_of_unbacked hnone, andThen_refused]
    · rw [runManager_bound _ _ hb, readWord_of_unwritten hbacked hnone, andThen_fault]
    · exact runManager_of_unbacked_pte hb ((readWord_eq_next _ _ _).2 ⟨hbacked, hpde⟩) hp hpte
  · obtain ⟨k, hk⟩ := exec_query hi s
    rw [hk]
    exact runManager_query_of_unwritten_pte hb ((readWord_eq_next _ _ _).2 ⟨hbacked, hpde⟩) hp hpte hw

/-! ### The bytes of a written entry (20_memory.md R40, R45) -/

/-- A byte of a word as a number. -/
theorem extractLsb'_byte (v : Word) (n : Nat) : v.extractLsb' n 8 = BitVec.ofNat 8 (v.toNat / 2 ^ n) := by
  rw [BitVec.extractLsb', Nat.shiftRight_eq_div_pow]

/-- A word write puts byte `k` of the word at offset `k` (R45). -/
theorem get_putWord_byte (m : Memory) (pa v : Word) {k : Nat} (hk : k < 4) :
    Store.get (putWord m pa v) (pa.toNat + k) = some (v.extractLsb' (8 * k) 8) := by
  simp only [putWord, Store.get_put]
  interval_cases k <;> simp

/-- An entry as a number: the frame, then the flags below it (R140, R142). -/
theorem toNat_packPte (pa : Word) (fl : FlagsRecord) : (packPte pa fl).toNat = pa.toNat / 4096 * 4096 + fl.toNat := by
  have hfl : (fl.setWidth 32 : Word).toNat = fl.toNat := by
    rw [BitVec.toNat_setWidth, Nat.mod_eq_of_lt (by have := fl.isLt; omega)]
  have hframe : pa.toNat / 4096 * 4096 = (pa.toNat / 4096) <<< 12 := by rw [Nat.shiftLeft_eq]
  rw [packPte, BitVec.toNat_or, toNat_and_frameMask, hfl, hframe, Nat.shiftLeft_add_eq_or_of_lt fl.isLt]

/-- Settles O36: MAP_PAGE's last write is the PTE, and a word write lays its bytes out from the low one. -/
theorem mappedEntryLiesLittleEndian : Obligations.MappedEntryLiesLittleEndian := by
  unfold Obligations.MappedEntryLiesLittleEndian
  intro s t virt phys pde pf tf k h hok hpde hk
  obtain ⟨-, hmem⟩ := runManager_map_ok h hok (by simpa using hpde)
  simp only [pteAddr_alignPage] at hmem
  rw [hmem, get_putWord_byte _ _ _ hk, extractLsb'_byte, toNat_packPte, toNat_alignPage, Nat.mul_div_cancel _ (by omega)]

/-! ### The CPU's updates of entries and descriptors (20_memory.md R51, R53) -/

/-- The bit an update sets: dirty (6) or accessed (5) (R53). -/
def markBits (m : CpuMark) : Word := if m = .pteDirty then 0x40#32 else 0x20#32

/-- The address of the PDE a walk from CR3 uses for a page (R228). -/
def cpuPdeAddr (s : State) (n : PageNumber) : Word := pdeAddrIn (cpuDir s) (pageBase n)

/-- `pa` is the entry an update is for: the page's PDE, or the PTE that a present PDE leads to (R228). -/
def IsMarkedEntry (s : State) (n : PageNumber) (m : CpuMark) (pa : Word) : Prop :=
  if m = .pdeAccessed then pa = cpuPdeAddr s n
  else ∃ pde, wordAt s.mem (cpuPdeAddr s n) = some pde ∧ entryP pde = true
    ∧ (pdePs pde && Config.fourMiBPages) = false ∧ pa = pteAddr pde (pageBase n)

/-- A present entry in memory gets its bit. -/
theorem markEntry_of_present {s : State} {pa e : Word} (hb : isBacked s.cfg pa = true) (he : wordAt s.mem pa = some e)
    (hp : entryP e = true) (bits : Word) : markEntry s pa bits = s.setMem (putWord s.mem pa (e ||| bits)) := by
  rw [markEntry, (readWord_eq_next s pa e).2 ⟨hb, he⟩]
  exact if_pos hp

/-- Only a present entry in memory changes. -/
theorem markEntry_unchanged_or_present (s : State) (pa bits : Word) : markEntry s pa bits = s
    ∨ ∃ e, isBacked s.cfg pa = true ∧ wordAt s.mem pa = some e ∧ entryP e = true
      ∧ markEntry s pa bits = s.setMem (putWord s.mem pa (e ||| bits)) := by
  cases hread : readWord s pa with
  | next e =>
    obtain ⟨hb, he⟩ := (readWord_eq_next s pa e).1 hread
    cases hp : entryP e with
    | false => left; simp [markEntry, hread, hp]
    | true => exact .inr ⟨e, hb, he, hp, markEntry_of_present hb he hp bits⟩
  | fault | refused => left; simp [markEntry, hread]

theorem cpuMarks_pdeAccessed (s : State) (n : PageNumber) :
    cpuMarks s n .pdeAccessed = markEntry s (cpuPdeAddr s n) (markBits .pdeAccessed) := rfl

/-- A PTE's update goes through the PDE. -/
theorem cpuMarks_of_pde {s : State} {n : PageNumber} {m : CpuMark} {pde : Word} (hm : m ≠ .pdeAccessed)
    (hread : readWord s (cpuPdeAddr s n) = .next pde) : cpuMarks s n m =
      if usesTable pde then markEntry s (pteAddr pde (pageBase n)) (markBits m) else s := by
  rw [cpuPdeAddr] at hread
  cases m with
  | pdeAccessed => exact absurd rfl hm
  | pteAccessed | pteDirty =>
    simp only [cpuMarks, hread]
    rfl

theorem cpuMarks_of_no_pde {s : State} {n : PageNumber} {m : CpuMark} (hm : m ≠ .pdeAccessed)
    (hread : ∀ pde, readWord s (cpuPdeAddr s n) ≠ .next pde) : cpuMarks s n m = s := by
  rw [cpuPdeAddr] at hread
  cases m with
  | pdeAccessed => exact absurd rfl hm
  | pteAccessed | pteDirty =>
    cases h : readWord s (pdeAddrIn (cpuDir s) (pageBase n)) with
    | next pde => exact absurd h (hread pde)
    | fault | refused => simp only [cpuMarks, h]

/-- An update changes nothing but, where it is present and in memory, the one entry it is for. -/
theorem cpuMarks_unchanged_or_marked (s : State) (n : PageNumber) (m : CpuMark) : cpuMarks s n m = s
    ∨ ∃ pa e, wordAt s.mem pa = some e ∧ entryP e = true
      ∧ cpuMarks s n m = s.setMem (putWord s.mem pa (e ||| markBits m))
      ∧ isBacked s.cfg pa = true ∧ isBacked s.cfg (cpuPdeAddr s n) = true ∧ IsMarkedEntry s n m pa := by
  by_cases hm : m = .pdeAccessed
  · subst hm
    obtain h | ⟨e, hb, he, hp, h⟩ := markEntry_unchanged_or_present s (cpuPdeAddr s n) (markBits .pdeAccessed)
    · exact .inl h
    · exact .inr ⟨_, e, he, hp, h, hb, hb, rfl⟩
  · cases hread : readWord s (cpuPdeAddr s n) with
    | fault | refused => exact .inl (cpuMarks_of_no_pde hm (by simp [hread]))
    | next pde =>
      obtain ⟨hbdir, hpde⟩ := (readWord_eq_next _ _ _).1 hread
      rw [cpuMarks_of_pde hm hread]
      cases htable : usesTable pde with
      | false => exact .inl rfl
      | true =>
        obtain ⟨hp, hsmall⟩ : entryP pde = true ∧ (pdePs pde && Config.fourMiBPages) = false := by
          simpa only [usesTable, Bool.and_eq_true, Bool.not_eq_true'] using htable
        rw [if_pos rfl]
        obtain h | ⟨e, hb, he, hpe, h⟩ := markEntry_unchanged_or_present s (pteAddr pde (pageBase n)) (markBits m)
        · exact .inl h
        · refine .inr ⟨_, e, he, hpe, h, hb, hbdir, ?_⟩
          rw [IsMarkedEntry, if_neg hm]
          exact ⟨pde, hpde, hp, hsmall, rfl⟩

/-- A present PTE in memory, under a present PDE with PS = 0, gets its bit. -/
theorem cpuMarks_of_present_pte {s : State} {n : PageNumber} {m : CpuMark} {pde pte : Word} (hm : m ≠ .pdeAccessed)
    (hpde : readWord s (cpuPdeAddr s n) = .next pde) (hp : entryP pde = true) (hps : pdePs pde = false)
    (hb : isBacked s.cfg (pteAddr pde (pageBase n)) = true) (hpte : wordAt s.mem (pteAddr pde (pageBase n)) = some pte)
    (hp' : entryP pte = true) :
    cpuMarks s n m = s.setMem (putWord s.mem (pteAddr pde (pageBase n)) (pte ||| markBits m)) := by
  have htable : usesTable pde = true := by simp [usesTable, hp, hps]
  rw [cpuMarks_of_pde hm hpde, if_pos htable, markEntry_of_present hb hpte hp']

/-- An update changes memory alone. -/
theorem cpuMarks_changes_mem_alone (s : State) (n : PageNumber) (m : CpuMark) :
    cpuMarks s n m = s.setMem (cpuMarks s n m).mem := by
  obtain h | ⟨pa, e, -, -, h, -⟩ := cpuMarks_unchanged_or_marked s n m <;> rw [h] <;> rfl

/-- The mark of a descriptor changes the slots alone, and of them the one, where it was loaded (R71). -/
theorem markDescriptor_changes_one_slot (s : State) (k : Fin 6) : ∃ g, markDescriptor s k = s.setGdt g
    ∧ (∀ (j : Nat) (h : j < 6), j ≠ k.val → g[j] = s.gdt[j])
    ∧ (LoadedFrom s k → g[k] = s.gdt[k] ||| 0x0000010000000000#64) ∧ (¬ LoadedFrom s k → g[k] = s.gdt[k]) := by
  obtain ⟨hnot, h⟩ | ⟨hloaded, h⟩ := markDescriptor_cases s k
  · exact ⟨s.gdt, h, fun _ _ _ => rfl, fun hl => absurd hl hnot, fun _ => rfl⟩
  · refine ⟨_, h, fun j hj hne => ?_, fun _ => ?_, fun hn => absurd hloaded hn⟩
    · exact Vector.getElem_set_ne _ _ hne.symm
    · exact Vector.getElem_set_self _

theorem OnlyCpuActs.setMem {s t : State} (h : OnlyCpuActs s t) (m : Memory) : OnlyCpuActs s (t.setMem m) := h

theorem OnlyCpuActs.setGdt {s t : State} (h : OnlyCpuActs s t) (g : Vector Descriptor 6) : OnlyCpuActs s (t.setGdt g) := h

theorem step_cpuMark {s : State} {n : PageNumber} {m : CpuMark} {rest : List Input} (hin : s.inputs = .cpuMark n m :: rest) :
    step s = .next (cpuMarks (cpuTurn (s.setInputs rest)) n m) := by rw [step_input s _ rest hin, takeInput]

theorem step_cpuMarkDescriptor {s : State} {k : Fin 6} {rest : List Input} (hin : s.inputs = .cpuMarkDescriptor k :: rest) :
    step s = .next (markDescriptor (cpuTurn (s.setInputs rest)) k) := by rw [step_input s _ rest hin, takeInput]

/-! ### An update between MAP_PAGE's read and its write (20_memory.md R51, 70_reset_and_hazards.md R299) -/

/-- A page number's first address is the address with its offset dropped. -/
theorem pageBase_vpnOf (v : Word) : pageBase (vpnOf v) = alignPage v := by
  apply BitVec.eq_of_toNat_eq
  have := v.isLt
  rw [pageBase, BitVec.toNat_shiftLeft, BitVec.toNat_setWidth, toNat_vpnOf, toNat_alignPage, Nat.shiftLeft_eq]
  omega

theorem cpuDir_eq_dirBase {s : State} (h : s.cr3.toNat / 4096 = s.curDir.toNat) : cpuDir s = dirBase s := by
  apply BitVec.eq_of_toNat_eq
  rw [toNat_dirBase, cpuDir, toNat_and_frameMask, h]

/-- With CR3 on the active directory the CPU and the manager use one PDE for a page (R228, R46). -/
theorem cpuPdeAddr_vpnOf {s : State} (h : s.cr3.toNat / 4096 = s.curDir.toNat) (v : Word) :
    cpuPdeAddr s (vpnOf v) = pdeAddr s v := by
  rw [cpuPdeAddr, cpuDir_eq_dirBase h, pageBase_vpnOf]
  exact pdeAddr_alignPage s v

theorem phaseStep_check {s : State} {op : MgrOp} (hp : s.ph = .check op) (hb : s.bound = true) :
    phaseStep s = .next (cpuTurn (s.setPhase (.rdPde op))) := by
  simp [phaseStep, phaseAction, hp, phaseCheck, hb]

theorem phaseStep_rdPde_map {s : State} {m : MapArgs} {pde : Word} (hp : s.ph = .rdPde (.map m))
    (hread : readWord s (pdeAddr s m.virt) = .next pde) (hpde : entryP pde = true) :
    phaseStep s = .next (cpuTurn (s.setPhase (.wrPde m pde))) := by
  simp [phaseStep, phaseAction, hp, phaseRdPde, mgrVirt, hread, hpde]

/-- WR_PDE writes the entry computed from the PDE that RD_PDE read, whatever memory now holds (R190). -/
theorem phaseStep_wrPde {s : State} {m : MapArgs} {pde : Word} (hp : s.ph = .wrPde m pde)
    (hb : isBacked s.cfg (pdeAddr s m.virt) = true) : phaseStep s =
      .next (cpuTurn ((s.setMem (putWord s.mem (pdeAddr s m.virt) (updatePde s.cfg.pdeFlagMask pde m.pdeFlags))).setPhase
        (.wrPte m.virt pde (packPte m.phys m.pteFlags)))) := by
  simp [phaseStep, phaseAction, hp, phaseWrPde, writeWord, hb]

/-- An operation in progress takes its next phase when told to (log 5). -/
theorem step_nextPhase {s : State} {rest : List Input} (hin : s.inputs = .nextPhase :: rest) (hp : s.ph ≠ .idle) :
    step s = phaseStep (cpuTurn (s.setInputs rest)) := by
  rw [step_input s _ rest hin, takeInput, runPhases_succ _ _ (by simpa using hp)]
  cases phaseStep (cpuTurn (s.setInputs rest)) <;> rfl

/-- In WR_PDE, told to go on or left alone, the block writes the PDE. -/
theorem step_wrPde {s : State} {m : MapArgs} {pde : Word} (hp : s.ph = .wrPde m pde)
    (hin : s.inputs = [] ∨ ∃ rest, s.inputs = .nextPhase :: rest) (hb : isBacked s.cfg (pdeAddr s m.virt) = true) :
    ∃ t, step s = .next t
      ∧ wordAt t.mem (pdeAddr s m.virt) = some (updatePde s.cfg.pdeFlagMask pde m.pdeFlags) := by
  obtain hin | ⟨rest, hin⟩ := hin
  · rw [step_no_input s hin, continueBlock_busy s (by simp [hp]), phaseStep_wrPde hp hb]
    exact ⟨_, rfl, wordAt_putWord_self _ _ _⟩
  · rw [step_nextPhase hin (by simp [hp]), phaseStep_wrPde (s := cpuTurn (s.setInputs rest)) hp hb]
    exact ⟨_, rfl, wordAt_putWord_self _ _ _⟩

/-- The CPU's update of the accessed bit in WR_PDE is there until the block's write, which does not see it. -/
theorem accessedUpdate_in_wrPde_is_lost {s : State} {m : MapArgs} {pde : Word} {rest : List Input}
    (hp : s.ph = .wrPde m pde) (hin : s.inputs = .cpuMark (vpnOf m.virt) .pdeAccessed :: rest)
    (hrest : rest = [] ∨ ∃ r, rest = .nextPhase :: r) (hdir : s.cr3.toNat / 4096 = s.curDir.toNat)
    (hb : isBacked s.cfg (pdeAddr s m.virt) = true) (hpde : wordAt s.mem (pdeAddr s m.virt) = some pde)
    (hpresent : entryP pde = true) :
    ∃ t u, step s = .next t ∧ wordAt t.mem (pdeAddr s m.virt) = some (pde ||| 0x20#32) ∧ step t = .next u
      ∧ wordAt u.mem (pdeAddr s m.virt) = some (updatePde s.cfg.pdeFlagMask pde m.pdeFlags) := by
  have hat : cpuPdeAddr (cpuTurn (s.setInputs rest)) (vpnOf m.virt) = pdeAddr s m.virt := cpuPdeAddr_vpnOf hdir m.virt
  have hmark : step s = .next ((cpuTurn (s.setInputs rest)).setMem
      (putWord s.mem (pdeAddr s m.virt) (pde ||| 0x20#32))) := by
    rw [step_cpuMark hin, cpuMarks_pdeAccessed, hat,
      markEntry_of_present (s := cpuTurn (s.setInputs rest)) hb hpde hpresent]
    rfl
  obtain ⟨u, hu, hwritten⟩ := step_wrPde (s := (cpuTurn (s.setInputs rest)).setMem
    (putWord s.mem (pdeAddr s m.virt) (pde ||| 0x20#32))) hp hrest hb
  exact ⟨_, u, hmark, wordAt_putWord_self _ _ _, hu, hwritten⟩

/-- The operation a MAP_PAGE issued with these ports latches (R182, R188). -/
def mapArgsOf (s : State) : MapArgs where
  virt := alignPage s.a0
  phys := alignPage s.a1
  pdeFlags := flagsOf s.a2
  pteFlags := flagsOf s.a3

/-- What walks read is the same in both states (R16, R21, R181, R228). -/
structure SameWalk (s t : State) : Prop where
  cfg : t.cfg = s.cfg
  mem : t.mem = s.mem
  bound : t.bound = s.bound
  curDir : t.curDir = s.curDir
  cr3 : t.cr3 = s.cr3

theorem SameWalk.trans {s t u : State} (h : SameWalk s t) (k : SameWalk t u) : SameWalk s u :=
  ⟨k.cfg.trans h.cfg, k.mem.trans h.mem, k.bound.trans h.bound, k.curDir.trans h.curDir, k.cr3.trans h.cr3⟩

theorem SameWalk.readPde {s t : State} (h : SameWalk s t) (v : Word) :
    readWord t (pdeAddr t v) = readWord s (pdeAddr s v) := by rw [pdeAddr_congr h.curDir, readWord_congr h.cfg h.mem]

/-- A MAP_PAGE issued stepwise enters CHECK (log 5). -/
theorem step_issueStepwise_map {s : State} {rest : List Input} (hin : s.inputs = .issueStepwise 0x31#8 :: rest)
    (hidle : s.ph = .idle) :
    ∃ t, step s = .next t ∧ t.ph = .check (.map (mapArgsOf s)) ∧ t.inputs = rest ∧ SameWalk s t := by
  have hdec : decodeOperation ((cpuTurn (s.setInputs rest)).setOp 0x31#8).command
      = .ok (.mapPage s.a0 s.a1 (flagsOf s.a2) (flagsOf s.a3)) := rfl
  rw [step_input s _ rest hin, takeInput, whenIdle_idle (by simpa using hidle), hdec]
  exact ⟨_, rfl, rfl, rfl, ⟨rfl, rfl, rfl, rfl, rfl⟩⟩

theorem step_check {s : State} {op : MgrOp} {rest : List Input} (hp : s.ph = .check op) (hin : s.inputs = .nextPhase :: rest)
    (hb : s.bound = true) : ∃ t, step s = .next t ∧ t.ph = .rdPde op ∧ t.inputs = rest ∧ SameWalk s t := by
  rw [step_nextPhase hin (by simp [hp]), phaseStep_check (s := cpuTurn (s.setInputs rest)) hp hb]
  exact ⟨_, rfl, rfl, rfl, ⟨rfl, rfl, rfl, rfl, rfl⟩⟩

theorem step_rdPde_map {s : State} {m : MapArgs} {pde : Word} {rest : List Input} (hp : s.ph = .rdPde (.map m))
    (hin : s.inputs = .nextPhase :: rest) (hread : readWord s (pdeAddr s m.virt) = .next pde) (hpde : entryP pde = true) :
    ∃ t, step s = .next t ∧ t.ph = .wrPde m pde ∧ t.inputs = rest ∧ SameWalk s t := by
  rw [step_nextPhase hin (by simp [hp]), phaseStep_rdPde_map (s := cpuTurn (s.setInputs rest)) hp hread hpde]
  exact ⟨_, rfl, rfl, rfl, ⟨rfl, rfl, rfl, rfl, rfl⟩⟩

/-- Issued stepwise, MAP_PAGE is after two more steps in WR_PDE, with the PDE read and nothing written. -/
theorem run_map_to_wrPde {s : State} {pde : Word} {rest : List Input} (hidle : s.ph = .idle) (hbound : s.bound = true)
    (hin : s.inputs = .issueStepwise 0x31#8 :: .nextPhase :: .nextPhase :: rest)
    (hread : readWord s (pdeAddr s s.a0) = .next pde) (hp : entryP pde = true) :
    ∃ t, (∀ n, Host.Core.run core (n + 3) s = Host.Core.run core n t) ∧ t.ph = .wrPde (mapArgsOf s) pde ∧ t.inputs = rest
      ∧ SameWalk s t := by
  obtain ⟨s₁, h₁, hph₁, hin₁, hsame₁⟩ := step_issueStepwise_map hin hidle
  obtain ⟨s₂, h₂, hph₂, hin₂, hsame₂⟩ := step_check hph₁ hin₁ (hsame₁.bound.trans hbound)
  have hread₂ : readWord s₂ (pdeAddr s₂ (mapArgsOf s).virt) = .next pde := by
    rw [(hsame₁.trans hsame₂).readPde, mapArgsOf, pdeAddr_alignPage, hread]
  obtain ⟨t, h₃, hph, hin₃, hsame₃⟩ := step_rdPde_map hph₂ hin₂ hread₂ hp
  exact ⟨t, fun n => (run_of_step h₁).trans ((run_of_step h₂).trans (run_of_step h₃)), hph, hin₃,
    (hsame₁.trans hsame₂).trans hsame₃⟩

/-- In a run from IDLE too, the CPU's update between RD_PDE and WR_PDE is lost. -/
theorem accessedUpdate_in_run_is_lost {s : State} {pde : Word} (hidle : s.ph = .idle) (hbound : s.bound = true)
    (hin : s.inputs = [.issueStepwise 0x31#8, .nextPhase, .nextPhase, .cpuMark (vpnOf s.a0) .pdeAccessed, .nextPhase])
    (hdir : s.cr3.toNat / 4096 = s.curDir.toNat) (hb : isBacked s.cfg (pdeAddr s s.a0) = true)
    (hpde : wordAt s.mem (pdeAddr s s.a0) = some pde) (hpresent : entryP pde = true) :
    ∃ t u, Host.Core.run core 4 s = .next t ∧ wordAt t.mem (pdeAddr s s.a0) = some (pde ||| 0x20#32)
      ∧ Host.Core.run core 5 s = .next u
      ∧ wordAt u.mem (pdeAddr s s.a0) = some (updatePde s.cfg.pdeFlagMask pde (flagsOf s.a2)) := by
  obtain ⟨w, hrun, hph, hinputs, hsame⟩ :=
    run_map_to_wrPde hidle hbound hin ((readWord_eq_next _ _ _).2 ⟨hb, hpde⟩) hpresent
  have hat : pdeAddr w (mapArgsOf s).virt = pdeAddr s s.a0 := by
    rw [pdeAddr_congr hsame.curDir, mapArgsOf, pdeAddr_alignPage]
  have hvpn : vpnOf (mapArgsOf s).virt = vpnOf s.a0 := vpnOf_alignPage s.a0
  obtain ⟨t, u, ht, htmem, hu, humem⟩ := accessedUpdate_in_wrPde_is_lost hph (by rw [hvpn, hinputs]) (.inr ⟨[], rfl⟩)
    (by rw [hsame.cr3, hsame.curDir, hdir]) (by rw [hat, hsame.cfg, hb]) (by rw [hat, hsame.mem, hpde]) hpresent
  rw [hat] at htmem humem
  rw [hsame.cfg] at humem
  exact ⟨t, u, (hrun 1).trans (run_of_step ht), htmem, (hrun 2).trans ((run_of_step ht).trans (run_of_step hu)), humem⟩

/-! ### The updates as steps of the machine (R53, R51, 30_encoding.md R71) -/

theorem getLsbD_accessed (e : Word) : (e ||| 0x20#32).getLsbD 5 = true := by simp

/-- Settles O56: an update is the mark of the one entry its walk ends at, or of the one slot; WR_PDE writes the PDE computed
from what RD_PDE read. In the first clause `mem` names memory after the update, so that the other fields stay as they are by
definition. -/
theorem accessedUpdateDuringMapIsLost : Obligations.AccessedUpdateDuringMapIsLost := by
  unfold Obligations.AccessedUpdateDuringMapIsLost
  refine ⟨?_, ?_, ?_, ?_⟩
  · intro s n m rest dir hin hdir
    set u := cpuTurn (s.setInputs rest)
    have hat : cpuPdeAddr u n = dir := hdir.symm
    obtain ⟨mem, hmem⟩ : ∃ mem, cpuMarks u n m = u.setMem mem := ⟨_, cpuMarks_changes_mem_alone u n m⟩
    have hval : ∀ x, cpuMarks u n m = u.setMem x → mem = x := fun x hx => congrArg State.mem (hmem.symm.trans hx)
    refine ⟨_, (step_cpuMark hin).trans (congrArg _ hmem), (OnlyCpuActs.turn s rest).setMem mem, rfl, ?_, ?_⟩
    · obtain h | ⟨pa, e, he, hp, h, hb, hbdir, hentry⟩ := cpuMarks_unchanged_or_marked u n m
      · exact .inl (hval s.mem h)
      · rw [IsMarkedEntry, hat] at hentry
        rw [hat] at hbdir
        exact .inr ⟨pa, e, he, hp, hval _ h, hb, hbdir, hentry⟩
    · rw [← hat]
      intro pde hb hpde hp
      have hread : readWord u (cpuPdeAddr u n) = .next pde := (readWord_eq_next _ _ _).2 ⟨hb, hpde⟩
      refine ⟨?_, fun pte hps hbt hpte hp' => ?_⟩
      · rintro rfl
        exact hval _ (markEntry_of_present (s := u) hb hpde hp _)
      · have hmarked : m ≠ .pdeAccessed → mem = putWord s.mem (pteAddr pde (pageBase n)) (pte ||| markBits m) :=
          fun hm => hval _ (cpuMarks_of_present_pte hm hread hp hps hbt hpte hp')
        exact ⟨by rintro rfl; exact hmarked (by simp), by rintro rfl; exact hmarked (by simp)⟩
  · intro s m pde hp hin hdir hb hpde hpresent
    obtain ⟨t, u, ht, htmem, hu, humem⟩ := accessedUpdate_in_wrPde_is_lost hp hin (.inl rfl) hdir hb hpde hpresent
    exact ⟨t, u, _, _, ht, htmem, getLsbD_accessed pde, hu, humem, rfl, getLsbD_updatePde _ _ _ 5⟩
  · intro s k rest hin
    obtain ⟨g, hmark, hg⟩ := markDescriptor_changes_one_slot (cpuTurn (s.setInputs rest)) k
    exact ⟨_, (step_cpuMarkDescriptor hin).trans (congrArg _ hmark), (OnlyCpuActs.turn s rest).setGdt g, rfl, hg⟩
  · intro s pde hidle hbound hin hdir hb hpde hpresent
    obtain ⟨t, u, ht, htmem, hu, humem⟩ := accessedUpdate_in_run_is_lost hidle hbound hin hdir hb hpde hpresent
    refine ⟨t, u, _, _, ht, htmem, getLsbD_accessed pde, hu, humem, rfl, ?_⟩
    rw [getLsbD_updatePde]
    simp [flagsOf]

end Sys2Proof.Machine

namespace Sys2Proof.Machine

open Sys2Proof

/-! ## Encoding, decoding and the codecs (30_encoding.md) -/

/-! ### Commands and the opcode table (R90 to R94) -/

/-- The decoder reads back what the encoder writes (R91, R92). -/
@[simp] theorem decode_encode (i : Instr) : decode (encode i) = .ok i := by simp [decode]

theorem decodeOperation_of_primitive {c : Command} (h : isPrimitiveCode c.op = true) :
    decodeOperation c = .error (.primitiveFromHost c.op) := if_pos h

theorem decodeOperation_of_operation {c : Command} (h : isPrimitiveCode c.op = false) : decodeOperation c = decode c :=
  if_neg (Bool.eq_false_iff.1 h)

theorem decodeRequest_of_primitive {c : Command} (h : isPrimitiveCode c.op = true) : decodeRequest c = decode c := if_pos h

theorem decodeRequest_of_operation {c : Command} (h : isPrimitiveCode c.op = false) :
    decodeRequest c = .error (.notPrimitive c.op) := if_neg (Bool.eq_false_iff.1 h)

/-- Settles O1: each channel is the table's decoder behind a test of the code, and the test is `isPrimitive`. -/
theorem decodeOfEncodeIsTheInstruction : Obligations.DecodeOfEncodeIsTheInstruction := by
  unfold Obligations.DecodeOfEncodeIsTheInstruction
  intro i
  refine ⟨decode_encode i, fun hprim => ⟨?_, decodeOperation_of_primitive hprim⟩,
    fun hop => ⟨?_, decodeRequest_of_operation hop⟩⟩
  · rw [decodeRequest_of_primitive hprim, decode_encode]
  · rw [decodeOperation_of_operation hop, decode_encode]

/-- The command with each port cut to its given number of low bits. -/
def cutPorts (c : Command) : Nat × Nat × Nat × Nat → Command
  | (n0, n1, n2, n3) => { op := c.op, a0 := (c.a0.setWidth n0).setWidth 32, a1 := (c.a1.setWidth n1).setWidth 32,
                          a2 := (c.a2.setWidth n2).setWidth 32, a3 := (c.a3.setWidth n3).setWidth 32 }

/-- A port cut to no bits is zero. -/
theorem setWidth_setWidth_zero (w : Word) : (w.setWidth 0).setWidth 32 = 0#32 := by
  rw [BitVec.of_length_zero (x := w.setWidth 0)]
  rfl

theorem tableRefWord_tableRefOf (w : Word) : tableRefWord (tableRefOf w) = (w.setWidth 1).setWidth 32 := by
  have hbit : w.setWidth 1 = BitVec.ofBool (w.getLsbD 0) := by ext i hi; simp [show i = 0 by omega]
  rw [hbit, tableRefOf]
  cases w.getLsbD 0 <;> rfl

/-- Reading a row's operands and encoding them again clears the port bits that the row ignores, and no others (R90, R94). -/
theorem encode_instrOf (o : Opcode) (c : Command) :
    encode (instrOf o c) = { cutPorts c (formatOfRow o).portWidths with op := codeOf o } := by
  cases o with
  | initGdt | loadGdt =>
    simp [instrOf, encode, rowOf, Command.of, formatOfRow, Format.portWidths, cutPorts, setWidth_setWidth_zero,
      tableRefWord_tableRefOf]
  | _ =>
    simp [instrOf, encode, rowOf, Command.of, formatOfRow, Format.portWidths, cutPorts, setWidth_setWidth_zero, byteOf,
      flagsOf, halfOf]

/-- A canonical command has a row's code and nothing outside the row's port bits. -/
theorem cutPorts_of_wellFormed {c : Command} (h : c.wellFormed = true) :
    ∃ o, opcodeOf c.op = some o ∧ cutPorts c (formatOfRow o).portWidths = c := by
  simp only [Command.wellFormed, formatOf] at h
  cases ho : opcodeOf c.op with
  | none => simp [ho] at h
  | some o =>
    simp only [ho, Option.map_some, Bool.and_eq_true] at h
    obtain ⟨⟨⟨h0, h1⟩, h2⟩, h3⟩ := h
    refine ⟨o, rfl, ?_⟩
    simp only [cutPorts, Word.setWidth_of_fits h0, Word.setWidth_of_fits h1, Word.setWidth_of_fits h2,
      Word.setWidth_of_fits h3]

/-- Settles O2: the instruction is the row's, with the operands the ports hold. -/
theorem canonicalCommandsDecodeAndEncodeBack : Obligations.CanonicalCommandsDecodeAndEncodeBack := by
  unfold Obligations.CanonicalCommandsDecodeAndEncodeBack
  intro c hc
  obtain ⟨o, ho, hcut⟩ := cutPorts_of_wellFormed hc
  refine ⟨instrOf o c, by rw [decode, ho], ?_⟩
  rw [encode_instrOf, hcut, codeOf_of_opcodeOf ho]

/-- The codes of R93 that select no row. -/
def IsReservedCode (code : Byte) : Prop :=
  code.toNat = 0x00 ∨ (0x04 ≤ code.toNat ∧ code.toNat ≤ 0x0F) ∨ (0x14 ≤ code.toNat ∧ code.toNat ≤ 0x1F)
    ∨ (0x26 ≤ code.toNat ∧ code.toNat ≤ 0x2F) ∨ (0x35 ≤ code.toNat ∧ code.toNat ≤ 0x3F) ∨ 0x46 ≤ code.toNat

theorem not_isReservedCode_codeOf (o : Opcode) : ¬ IsReservedCode (codeOf o) := by
  cases o <;> simp [IsReservedCode, codeOf]

theorem decode_of_reserved {c : Command} (h : IsReservedCode c.op) : decode c = .error (.reserved c.op) := by
  cases ho : opcodeOf c.op with
  | none => rw [decode, ho]
  | some o =>
    rw [← codeOf_of_opcodeOf ho] at h
    exact absurd h (not_isReservedCode_codeOf o)

theorem isPrimitiveCode_iff (code : Byte) : isPrimitiveCode code = true ↔ 0x40 ≤ code.toNat ∧ code.toNat ≤ 0x45 := by
  simp [isPrimitiveCode]

/-- In IDLE the host's issue of what does not decode is refused, in either form (R93; log 5). -/
theorem step_issue_of_error {s : State} {code : Byte} {rest : List Input} {e : DecodeError}
    (hin : s.inputs = .issue code :: rest ∨ s.inputs = .issueStepwise code :: rest) (hidle : s.ph = .idle)
    (hdec : decodeOperation { op := code, a0 := s.a0, a1 := s.a1, a2 := s.a2, a3 := s.a3 } = .error e) :
    step s = .refused (refusalOf e) := by
  have hcmd : decodeOperation ((cpuTurn (s.setInputs rest)).setOp code).command = .error e := hdec
  obtain hin | hin := hin
  · rw [step_input s _ rest hin, takeInput, whenIdle_idle (by simpa using hidle), hcmd, runDecoded]
  · rw [step_input s _ rest hin, takeInput, whenIdle_idle (by simpa using hidle), hcmd, beginDecoded]

/-- Settles O5: a code of those ranges is a primitive's, which the operation channel refuses, or selects no row. -/
theorem reservedAndPrimitiveCodesAreRefused : Obligations.ReservedAndPrimitiveCodesAreRefused := by
  unfold Obligations.ReservedAndPrimitiveCodesAreRefused
  intro s code rest hin hidle hcode
  by_cases hprim : 0x40 ≤ code.toNat ∧ code.toNat ≤ 0x45
  · rw [if_pos hprim]
    exact step_issue_of_error hin hidle (decodeOperation_of_primitive ((isPrimitiveCode_iff code).2 hprim))
  · have hreserved : IsReservedCode code := by
      unfold IsReservedCode
      omega
    have hop : isPrimitiveCode code = false := Bool.eq_false_iff.2 (mt (isPrimitiveCode_iff code).1 hprim)
    rw [if_neg hprim]
    exact step_issue_of_error hin hidle ((decodeOperation_of_operation hop).trans (decode_of_reserved hreserved))

/-- Settles O4: each word is closed, so the decoder computes on it. -/
theorem writtenOutWordsDecode : Obligations.WrittenOutWordsDecode := by
  unfold Obligations.WrittenOutWordsDecode
  exact ⟨rfl, rfl, rfl, rfl, rfl, rfl⟩

/-- Settles O8: in IDLE the host's guard lets the request through. -/
theorem stepRunsTheRequestedPrimitive : Obligations.StepRunsTheRequestedPrimitive := by
  unfold Obligations.StepRunsTheRequestedPrimitive
  intro s c rest i hin hidle hdec
  rw [step_input s _ rest hin, takeInput, whenIdle_idle (by simpa using hidle), hdec, runDecoded, cpuTurn_setInputs]

/-! ### The descriptor encoder and the field view (R73, R74, 40_descriptor_encoder.md R110, R111) -/

/-- What ENC_DESC answers (R110). -/
theorem exec_encDesc (base limit : Word) (access flags : Byte) (s : State) :
    exec (.encDesc base limit access flags) s =
      .next { s with y0 := some ((packDescriptor base limit access flags).extractLsb' 0 32),
                     y1 := some ((packDescriptor base limit access flags).extractLsb' 32 32), ok := none } := rfl

/-- The base lies in three fields of the descriptor (R70, R74). -/
theorem extractLsb'_descBase (d : Descriptor) : (descBase d).extractLsb' 0 16 = d.extractLsb' 16 16
    ∧ (descBase d).extractLsb' 16 8 = d.extractLsb' 32 8 ∧ (descBase d).extractLsb' 24 8 = d.extractLsb' 56 8 := by
  simp (disch := omega) only [descBase, BitVec.extractLsb'_append_eq_of_le, BitVec.extractLsb'_append_eq_of_add_le]
  simp

theorem extractLsb'_descLimit (d : Descriptor) : (descLimit d).extractLsb' 0 16 = d.extractLsb' 0 16
    ∧ (descLimit d).extractLsb' 16 4 = d.extractLsb' 48 4 :=
  ⟨BitVec.extractLsb'_append_eq_right, BitVec.extractLsb'_append_eq_left⟩

theorem extractLsb'_descFlags (d : Descriptor) : (descFlags d).extractLsb' 4 4 = d.extractLsb' 52 4 :=
  BitVec.extractLsb'_append_eq_left

/-- A descriptor is the concatenation of the fields of its field view (R70, R74). -/
theorem descriptor_eq_fields (d : Descriptor) : d = (descBase d).extractLsb' 24 8 ++ (descFlags d).extractLsb' 4 4
    ++ (descLimit d).extractLsb' 16 4 ++ descAccess d ++ (descBase d).extractLsb' 16 8 ++ (descBase d).extractLsb' 0 16
    ++ (descLimit d).extractLsb' 0 16 := by
  obtain ⟨hbase0, hbase16, hbase24⟩ := extractLsb'_descBase d
  obtain ⟨hlimit0, hlimit16⟩ := extractLsb'_descLimit d
  rw [hbase0, hbase16, hbase24, hlimit0, hlimit16, extractLsb'_descFlags, descAccess]
  simp (disch := omega) only [BitVec.extractLsb'_append_extractLsb'_eq_extractLsb']
  exact BitVec.extractLsb'_eq_self.symm

theorem descriptor_ext {d e : Descriptor} (hbase : descBase d = descBase e) (hlimit : descLimit d = descLimit e)
    (haccess : descAccess d = descAccess e) (hflags : descFlags d = descFlags e) : d = e := by
  rw [descriptor_eq_fields d, hbase, hlimit, haccess, hflags, ← descriptor_eq_fields e]

theorem toNat_clampLimit (l : Word) : (clampLimit l).toNat = min l.toNat 0xFFFFF := by
  rw [clampLimit_eq, BitVec.toNat_ofNat, Nat.mod_eq_of_lt (by omega)]

/-- A limit that fits is not clamped (R111). -/
@[simp] theorem clampLimit_setWidth (l : BitVec 20) : clampLimit (l.setWidth 32) = l := by
  apply BitVec.eq_of_toNat_eq
  have hl := l.isLt
  rw [toNat_clampLimit, BitVec.toNat_setWidth, Nat.mod_eq_of_lt (by omega), Nat.min_eq_left (by omega)]

/-- The flags of a descriptor have a zero low nibble (R74). -/
@[simp] theorem descFlags_and_highNibble (d : Descriptor) : descFlags d &&& 0xF0#8 = descFlags d := by
  have hmask : (0xF0#8 : Byte) = BitVec.allOnes 4 ++ 0#4 := rfl
  rw [descFlags, hmask, BitVec.and_append, BitVec.and_allOnes, BitVec.and_zero]

/-- The low nibble of `flags` is outside its field (R112). -/
theorem extractLsb'_and_highNibble (f : Byte) : (f &&& 0xF0#8).extractLsb' 4 4 = f.extractLsb' 4 4 := by
  have hmask : (0xF0#8 : Byte).extractLsb' 4 4 = BitVec.allOnes 4 := rfl
  rw [BitVec.extractLsb'_and, hmask, BitVec.and_allOnes]

/-- ENC_DESC of the field view (R74). -/
theorem packDescriptor_fieldView (d : Descriptor) :
    packDescriptor (descBase d) ((descLimit d).setWidth 32) (descAccess d) (descFlags d) = d := by
  apply descriptor_ext <;> simp

/-- Settles O13: the fields of the packed descriptor are those of its field view. -/
theorem encDescPutsEveryFieldInItsPlace : Obligations.EncDescPutsEveryFieldInItsPlace := by
  unfold Obligations.EncDescPutsEveryFieldInItsPlace
  intro s base limit access flags
  set d := packDescriptor base limit access flags with hd
  have hbase : descBase d = base := descBase_packDescriptor ..
  have hlimit : descLimit d = BitVec.ofNat 20 (min limit.toNat 0xFFFFF) := by rw [hd, descLimit_packDescriptor, clampLimit_eq]
  have hflags : descFlags d = flags &&& 0xF0#8 := descFlags_packDescriptor ..
  obtain ⟨hbase0, hbase16, hbase24⟩ := extractLsb'_descBase d
  obtain ⟨hlimit0, hlimit16⟩ := extractLsb'_descLimit d
  rw [hbase] at hbase0 hbase16 hbase24
  rw [hlimit] at hlimit0 hlimit16
  refine ⟨d, exec_encDesc .., hlimit0.symm, hbase0.symm, hbase16.symm, descAccess_packDescriptor .., hlimit16.symm, ?_,
    hbase24.symm⟩
  rw [← extractLsb'_descFlags, hflags, extractLsb'_and_highNibble]

/-- Settles O16: one direction is `packDescriptor_fieldView`, the other the field view of a packed descriptor. -/
theorem fieldViewInvertsEncDesc : Obligations.FieldViewInvertsEncDesc := by
  unfold Obligations.FieldViewInvertsEncDesc
  refine fun s => ⟨fun d => ?_, fun base limit access flags => ?_⟩
  · rw [exec_encDesc, packDescriptor_fieldView]
  · refine ⟨_, exec_encDesc base limit access flags s, descBase_packDescriptor .., descAccess_packDescriptor .., ?_,
      descFlags_packDescriptor ..⟩
    rw [descLimit_packDescriptor, toNat_clampLimit]

/-! ### The entry codec (R80, R83, 42_entry_codec.md R140 to R143) -/

/-- ENC_PDE and ENC_PTE as a number. -/
theorem packPte_eq_ofNat (pa : Word) (fl : FlagsRecord) :
    packPte pa fl = BitVec.ofNat 32 (pa.toNat / 4096 * 4096 + fl.toNat) := by
  rw [← toNat_packPte, BitVec.ofNat_toNat, BitVec.setWidth_eq]

theorem entryFrame_eq_ofNat (e : Word) : entryFrame e = BitVec.ofNat 32 (e.toNat / 4096 * 4096) := by
  have halign : entryFrame e = alignPage e := pageBase_vpnOf e
  rw [halign, ← toNat_alignPage, BitVec.ofNat_toNat, BitVec.setWidth_eq]

theorem setWidth_entryFlags (e : Word) : (entryFlags e).setWidth 32 = BitVec.ofNat 32 (e.toNat % 4096) := by
  apply BitVec.eq_of_toNat_eq
  rw [entryFlags, BitVec.toNat_setWidth, BitVec.toNat_setWidth, BitVec.toNat_ofNat]

/-- One bit of an entry as the field it is. -/
theorem ofBool_getLsbD (e : Word) (i : Nat) : BitVec.ofBool (e.getLsbD i) = e.extractLsb' i 1 := by
  ext j hj
  simp [show j = 0 by omega]

theorem pde_eq_fields (e : Word) : e = entryBase e ++ pdeAvl e ++ BitVec.ofBool (pdePs e) ++ BitVec.ofBool (pdeIgn6 e)
    ++ BitVec.ofBool (entryA e) ++ BitVec.ofBool (entryPcd e) ++ BitVec.ofBool (entryPwt e) ++ BitVec.ofBool (entryUs e)
    ++ BitVec.ofBool (entryRw e) ++ BitVec.ofBool (entryP e) := by
  simp (disch := omega) only [entryBase, pdeAvl, pdePs, pdeIgn6, entryA, entryPcd, entryPwt, entryUs, entryRw, entryP,
    ofBool_getLsbD, BitVec.extractLsb'_append_extractLsb'_eq_extractLsb']
  exact BitVec.extractLsb'_eq_self.symm

theorem pte_eq_fields (e : Word) : e = entryBase e ++ pteAvl e ++ BitVec.ofBool (pteG e) ++ BitVec.ofBool (ptePat e)
    ++ BitVec.ofBool (pteD e) ++ BitVec.ofBool (entryA e) ++ BitVec.ofBool (entryPcd e) ++ BitVec.ofBool (entryPwt e)
    ++ BitVec.ofBool (entryUs e) ++ BitVec.ofBool (entryRw e) ++ BitVec.ofBool (entryP e) := by
  simp (disch := omega) only [entryBase, pteAvl, pteG, ptePat, pteD, entryA, entryPcd, entryPwt, entryUs, entryRw, entryP,
    ofBool_getLsbD, BitVec.extractLsb'_append_extractLsb'_eq_extractLsb']
  exact BitVec.extractLsb'_eq_self.symm

theorem exec_encPte (pa : Word) (fl : FlagsRecord) (s : State) :
    exec (.encPte pa fl) s = .next { s with y0 := some (packPte pa fl), y1 := none, ok := none } := rfl

theorem exec_decPte (e : Word) (s : State) :
    exec (.decPte e) s = .next { s with y0 := some (entryFrame e), y1 := some ((entryFlags e).setWidth 32), ok := none } := rfl

theorem exec_encPde (pa : Word) (fl : FlagsRecord) (s : State) : exec (.encPde pa fl) s = exec (.encPte pa fl) s := rfl

theorem exec_decPde (e : Word) (s : State) : exec (.decPde e) s = exec (.decPte e) s := rfl

/-- Settles O23: the codec of a PDE is that of a PTE, whose results as numbers are the lemmas above. -/
theorem codecPacksAndSplitsEntries : Obligations.CodecPacksAndSplitsEntries := by
  unfold Obligations.CodecPacksAndSplitsEntries
  intro s pa e fl
  rw [exec_encPde, exec_decPde, exec_encPte, exec_decPte, packPte_eq_ofNat, entryFrame_eq_ofNat, setWidth_entryFlags]
  exact ⟨rfl, rfl, rfl, rfl, pde_eq_fields e, pte_eq_fields e⟩

/-! ### IS_MAPPED and GET_PHYS (R96, R203) -/

/-- The CPU's turn sees neither the phase nor the result ports. -/
theorem cpuTurn_setPhase (s : State) (p : Phase) : cpuTurn (s.setPhase p) = (cpuTurn s).setPhase p := by
  have htlb : (cpuTurn (s.setPhase p)).tlb = (cpuTurn s).tlb := cpuTurn_tlb_of rfl rfl rfl rfl rfl
  calc cpuTurn (s.setPhase p) = { (cpuTurn s).setPhase p with tlb := (cpuTurn (s.setPhase p)).tlb } := rfl
    _ = (cpuTurn s).setPhase p := by rw [htlb]; rfl

theorem cpuTurn_setResults (s : State) (y0 y1 : Option Word) (ok : Option Bool) :
    cpuTurn (s.setResults y0 y1 ok) = (cpuTurn s).setResults y0 y1 ok := by
  have htlb : (cpuTurn (s.setResults y0 y1 ok)).tlb = (cpuTurn s).tlb := cpuTurn_tlb_of rfl rfl rfl rfl rfl
  calc cpuTurn (s.setResults y0 y1 ok)
      = { (cpuTurn s).setResults y0 y1 ok with tlb := (cpuTurn (s.setResults y0 y1 ok)).tlb } := rfl
    _ = (cpuTurn s).setResults y0 y1 ok := by rw [htlb]; rfl

/-- From phase RD_PTE on, IS_MAPPED is GET_PHYS with the address discarded. -/
theorem runPhases_isMapped (n : Nat) (v pde : Word) (s : State) :
    runPhases (n + 1) (cpuTurn (s.setPhase (.rdPte .isMapped v pde)))
      = andThen (runPhases (n + 1) (cpuTurn (s.setPhase (.rdPte .getPhys v pde)))) fun t => .next { t with y0 := none } := by
  rw [runPhases_rdPte, runPhases_rdPte]
  cases readWord s (pteAddr pde v) with
  | fault e | refused e => rfl
  | next pte =>
    simp only [andThen_next, failOp_eq, succeedOp_eq, succeedWith_eq, cpuTurn_setPhase, cpuTurn_setResults]
    cases entryP pte <;> rfl

/-- Settles O40: the two queries walk alike up to phase RD_PTE, where their answers differ in the address alone. -/
theorem isMappedIsGetPhysWithoutTheAddress : Obligations.IsMappedIsGetPhysWithoutTheAddress := by
  unfold Obligations.IsMappedIsGetPhysWithoutTheAddress
  intro s virt
  have hisMapped : exec (.isMapped virt) s = runManager (.query .isMapped virt) s := rfl
  have hgetPhys : exec (.getPhys virt) s = runManager (.query .getPhys virt) s := rfl
  rw [hisMapped, hgetPhys]
  cases hb : s.bound with
  | false =>
    rw [runManager_unbound _ _ hb, runManager_unbound _ _ hb]
    simp only [andThen_next, atCheck_eq, failOp_eq, cpuTurn_setPhase, cpuTurn_setResults]
    rfl
  | true =>
    rw [runManager_bound _ _ hb, runManager_bound _ _ hb]
    simp only [mgrVirt, runPhases_isMapped]
    simp only [atRdPde_eq, failOp_eq, cpuTurn_setPhase, cpuTurn_setResults]
    cases readWord s (pdeAddr s virt) with
    | fault e | refused e => rfl
    | next pde =>
      simp only [andThen_next]
      cases entryP pde <;> rfl

/-! ### CR3 (45_cpu_primitives.md R225, R226) -/

/-- Settles O53: the test of R226 passes on the current value, whose write is no change. -/
theorem cr3PrimitivesReadAndFlush : Obligations.Cr3PrimitivesReadAndFlush := by
  unfold Obligations.Cr3PrimitivesReadAndFlush
  intro s
  have hflush : exec (.pWrCr3 s.cr3) s = .next (flushTlb s) := if_pos rfl
  exact ⟨rfl, hflush, ⟨flushTlb s, hflush, rfl⟩, fun v hv => if_neg hv⟩

end Sys2Proof.Machine

namespace Sys2Proof.Machine

open Sys2Proof

/-! ### What ENC_DESC keeps of its operands (40_descriptor_encoder.md R111, R112, R115) -/

/-- A descriptor is its field view, so two packings are equal exactly when they agree in the four fields (R74). -/
theorem packDescriptor_eq_iff (b l b' l' : Word) (a f a' f' : Byte) :
    packDescriptor b l a f = packDescriptor b' l' a' f'
      ↔ b = b' ∧ clampLimit l = clampLimit l' ∧ a = a' ∧ f &&& 0xF0#8 = f' &&& 0xF0#8 := by
  constructor
  · intro h
    refine ⟨?_, ?_, ?_, ?_⟩
    · simpa using congrArg descBase h
    · simpa using congrArg descLimit h
    · simpa using congrArg descAccess h
    · simpa using congrArg descFlags h
  · rintro ⟨hbase, hlimit, haccess, hflags⟩
    apply descriptor_ext <;> simpa

/-- The two result ports hold the whole descriptor (R110). -/
theorem descriptor_eq_ports (d : Descriptor) : d = d.extractLsb' 32 32 ++ d.extractLsb' 0 32 := by
  simp (disch := omega) only [BitVec.extractLsb'_append_extractLsb'_eq_extractLsb']
  exact BitVec.extractLsb'_eq_self.symm

/-- Two ENC_DESC in one state end alike exactly when they pack the same descriptor. -/
theorem exec_encDesc_eq_iff (b l b' l' : Word) (a f a' f' : Byte) (s : State) :
    exec (.encDesc b l a f) s = exec (.encDesc b' l' a' f') s
      ↔ packDescriptor b l a f = packDescriptor b' l' a' f' := by
  constructor
  · intro h
    simp only [exec_encDesc, Host.Outcome.next.injEq, State.mk.injEq, Option.some.injEq, true_and, and_true] at h
    obtain ⟨hlow, hhigh⟩ := h
    rw [descriptor_eq_ports (packDescriptor b l a f), hlow, hhigh, ← descriptor_eq_ports]
  · intro h
    rw [exec_encDesc, exec_encDesc, h]

/-- Clamping twice is clamping once (R111). -/
theorem clampLimit_min (l : Word) : clampLimit (BitVec.ofNat 32 (min l.toNat 0xFFFFF)) = clampLimit l := by
  apply BitVec.eq_of_toNat_eq
  rw [toNat_clampLimit, toNat_clampLimit, BitVec.toNat_ofNat, Nat.mod_eq_of_lt (by omega)]
  omega

theorem clampLimit_of_large {l : Word} (h : 0x100000 ≤ l.toNat) : clampLimit l = 0xFFFFF#20 := by
  rw [clampLimit_eq, Nat.min_eq_right (by omega)]

theorem clampLimit_inj {l l' : Word} (hl : l.toNat ≤ 0xFFFFF) (hl' : l'.toNat ≤ 0xFFFFF)
    (h : clampLimit l = clampLimit l') : l = l' := by
  have hnat : min l.toNat 0xFFFFF = min l'.toNat 0xFFFFF := by rw [← toNat_clampLimit, h, toNat_clampLimit]
  exact BitVec.eq_of_toNat_eq (by omega)

/-- The flags byte of a descriptor: the high nibble is of the flags, the low one of the limit (R70, R74). -/
theorem flagsByte_eq (d : Descriptor) :
    d.extractLsb' 48 8 = (descFlags d).extractLsb' 4 4 ++ (descLimit d).extractLsb' 16 4 := by
  obtain ⟨-, hlimit16⟩ := extractLsb'_descLimit d
  rw [extractLsb'_descFlags, hlimit16]
  simp (disch := omega) only [BitVec.extractLsb'_append_extractLsb'_eq_extractLsb']

theorem flagsByte_packDescriptor (b l : Word) (a f : Byte) :
    (packDescriptor b l a f).extractLsb' 48 8 = f.extractLsb' 4 4 ++ (clampLimit l).extractLsb' 16 4 := by
  rw [flagsByte_eq, descFlags_packDescriptor, descLimit_packDescriptor, extractLsb'_and_highNibble]

/-- What R112 leaves of the flags. -/
theorem and_highNibble_eq_append (f : Byte) : f &&& 0xF0#8 = f.extractLsb' 4 4 ++ 0#4 := by
  have hf : f = f.extractLsb' 4 4 ++ f.extractLsb' 0 4 := by
    rw [BitVec.extractLsb'_append_extractLsb'_eq_extractLsb' (by omega)]
    exact BitVec.extractLsb'_eq_self.symm
  have hmask : (0xF0#8 : Byte) = BitVec.allOnes 4 ++ 0#4 := rfl
  conv_lhs => rw [hf, hmask, BitVec.and_append, BitVec.and_allOnes, BitVec.and_zero]

theorem toNat_and_highNibble (f : Byte) : (f &&& 0xF0#8).toNat = f.toNat / 16 * 16 := by
  have hf := f.isLt
  rw [and_highNibble_eq_append, BitVec.toNat_append, BitVec.extractLsb'_toNat, BitVec.toNat_ofNat, Nat.zero_mod,
    Nat.or_zero, Nat.shiftLeft_eq, Nat.shiftRight_eq_div_pow]
  omega

theorem and_highNibble_eq_self_iff (f : Byte) : f &&& 0xF0#8 = f ↔ f.toNat % 16 = 0 := by
  rw [← BitVec.toNat_inj, toNat_and_highNibble]
  omega

/-- Settles O14: packing sees the limit through `clampLimit` alone. -/
theorem encDescClampsTheLimit : Obligations.EncDescClampsTheLimit := by
  unfold Obligations.EncDescClampsTheLimit
  refine fun s base limit access flags => ⟨?_, fun hlarge => ⟨_, ?_, exec_encDesc ..⟩⟩
  · rw [exec_encDesc_eq_iff, packDescriptor_eq_iff]
    exact ⟨rfl, (clampLimit_min limit).symm, rfl, rfl⟩
  · rw [descLimit_packDescriptor, clampLimit_of_large hlarge]

/-- Settles O15: packing sees the flags through their high nibble alone, and the flags byte's low nibble is the limit's. -/
theorem encDescDiscardsTheLowFlagsNibble : Obligations.EncDescDiscardsTheLowFlagsNibble := by
  unfold Obligations.EncDescDiscardsTheLowFlagsNibble
  refine fun s base limit access flags => ⟨?_, ⟨_, ?_, exec_encDesc ..⟩, ⟨_, ?_, exec_encDesc ..⟩⟩
  · rw [exec_encDesc_eq_iff, packDescriptor_eq_iff]
    exact ⟨rfl, rfl, rfl, by rw [BitVec.and_assoc, BitVec.and_self]⟩
  · rw [flagsByte_packDescriptor]
    rfl
  · rw [flagsByte_packDescriptor]
    rfl

/-- Settles O17: on canonical operands neither the clamp nor the cut of the flags loses a bit, and the field view of a
descriptor is canonical. -/
theorem encDescIsOneToOneAndOnto : Obligations.EncDescIsOneToOneAndOnto := by
  unfold Obligations.EncDescIsOneToOneAndOnto
  refine fun s => ⟨?_, fun b l b' l' a f a' f' hl hl' hf hf' h => ?_, fun d =>
    ⟨descBase d, (descLimit d).setWidth 32, descAccess d, descFlags d, ?_, ?_, ?_⟩⟩
  · have hones : packDescriptor 0xFFFFFFFF#32 0xFFFFFFFF#32 0xFF#8 0xFF#8 = BitVec.allOnes 64 := by decide
    rw [exec_encDesc, hones]
    rfl
  · rw [exec_encDesc_eq_iff, packDescriptor_eq_iff, (and_highNibble_eq_self_iff f).2 hf,
      (and_highNibble_eq_self_iff f').2 hf'] at h
    obtain ⟨hbase, hlimit, haccess, hflags⟩ := h
    exact ⟨hbase, clampLimit_inj hl hl' hlimit, haccess, hflags⟩
  · have hlt := (descLimit d).isLt
    rw [BitVec.toNat_setWidth, Nat.mod_eq_of_lt (by omega)]
    omega
  · exact (and_highNibble_eq_self_iff _).1 (descFlags_and_highNibble d)
  · rw [exec_encDesc, packDescriptor_fieldView]

end Sys2Proof.Machine

namespace Sys2Proof.Machine

open Sys2Proof

/-! ## The GDT table (41_gdt_table.md) -/

/-! ### INIT_GDT and the early return (R122 to R124, R130) -/

theorem exec_initGdt_table (s : State) : exec (.initGdt .table) s = .next (resultNone (s.setGdt builtGdt)) := rfl

/-- The packed rows of R121 are the values R123 states. -/
theorem builtGdt_eq_slots : builtGdt = #v[0x0000000000000000#64, 0x00CF9A000000FFFF#64, 0x00CF92000000FFFF#64,
    0x00CFFA000000FFFF#64, 0x00CFF2000000FFFF#64, 0x0000890000000000#64] := by decide

theorem gdtImageByte_builtGdt {o : Nat} (ho : o < 48) : gdtImageByte builtGdt o
    = ([0x00#8, 0x00#8, 0x00#8, 0x00#8, 0x00#8, 0x00#8, 0x00#8, 0x00#8,
        0xFF#8, 0xFF#8, 0x00#8, 0x00#8, 0x00#8, 0x9A#8, 0xCF#8, 0x00#8,
        0xFF#8, 0xFF#8, 0x00#8, 0x00#8, 0x00#8, 0x92#8, 0xCF#8, 0x00#8,
        0xFF#8, 0xFF#8, 0x00#8, 0x00#8, 0x00#8, 0xFA#8, 0xCF#8, 0x00#8,
        0xFF#8, 0xFF#8, 0x00#8, 0x00#8, 0x00#8, 0xF2#8, 0xCF#8, 0x00#8,
        0x00#8, 0x00#8, 0x00#8, 0x00#8, 0x00#8, 0x89#8, 0x00#8, 0x00#8] : List Byte)[o]? := by
  rw [builtGdt_eq_slots]
  revert o
  decide

/-- Settles O18: the table is the constant of R121, packed, and its image is that constant's bytes. -/
theorem initGdtBuildsTheSixSlots : Obligations.InitGdtBuildsTheSixSlots := by
  unfold Obligations.InitGdtBuildsTheSixSlots
  intro s
  rw [← builtGdt_eq_slots]
  exact ⟨_, exec_initGdt_table s, rfl, fun _ ho => gdtImageByte_builtGdt ho⟩

/-- Settles O19: INIT_GDT writes the table and the result ports whole, each with a constant. -/
theorem initGdtIsIdempotentFromAnyTable : Obligations.InitGdtIsIdempotentFromAnyTable := by
  unfold Obligations.InitGdtIsIdempotentFromAnyTable
  intro s g
  simp only [exec_initGdt_table, andThen_next]
  exact ⟨rfl, rfl⟩

/-- Settles O20: on the null reference both operations only empty the result ports. -/
theorem nullTableReferenceReturnsEarly : Obligations.NullTableReferenceReturnsEarly := by
  unfold Obligations.NullTableReferenceReturnsEarly
  exact fun s => ⟨rfl, rfl⟩

/-! ### LOAD_GDT (R126, R127, R129) -/

theorem OnlyCpuActs.setSegs {s t : State} (h : OnlyCpuActs s t) (r : SegRegs) : OnlyCpuActs s (t.setSegs r) := h

/-- Settles O21: GDTR holds the table's own limit and base when RELOAD tests it, and the TLB moves in the CPU's two turns
alone. -/
theorem loadGdtLoadsOrIsFatal : Obligations.LoadGdtLoadsOrIsFatal := by
  unfold Obligations.LoadGdtLoadsOrIsFatal
  refine fun s => ⟨fun h => ?_, fun h => ?_⟩
  · have hloads := (execLoadGdt_table s).trans (if_pos ((acceptable_iff ..).2 h))
    refine ⟨_, hloads, rfl, segsReloaded_of_acceptable h, ?_⟩
    have hlgdt : OnlyCpuActs s (((resultNone s).setGdtr 0x002F#16 s.cfg.gdtLinearBase).setPhase .reload) :=
      .of_tlb_eq rfl rfl
    exact (((hlgdt.cpuTurn_of rfl rfl rfl).setSegs _).setPhase .idle).cpuTurn_of (by simp) (by simp) (by simp)
  · exact (execLoadGdt_table s).trans (if_neg (mt (acceptable_iff ..).1 h))

/-- R129: with the selectors of R6, slots 1 and 2 of the table INIT_GDT builds are a kernel's code and data segment. -/
theorem tableAcceptable_builtGdt {c : Config} (hcs : c.kernelCs = 0x0008#16) (hds : c.kernelDs = 0x0010#16) :
    TableAcceptable c { limit := 0x002F#16, base := c.gdtLinearBase } builtGdt := by
  refine ⟨0x00CF9A000000FFFF#64, 0x00CF92000000FFFF#64, ?_⟩
  rw [hcs, hds, builtGdt_eq_slots]
  simp

/-- What a reload caches of that table: slots 1 and 2 with `A` set (30_encoding.md R71). -/
theorem segsReloaded_builtGdt {c : Config} {r : SegRegs} (hcs : c.kernelCs = 0x0008#16) (hds : c.kernelDs = 0x0010#16)
    (h : SegsReloaded c builtGdt r) : r.cs = { selector := 0x0008#16, cached := 0x00CF9B000000FFFF#64 }
      ∧ r.ds = { selector := 0x0010#16, cached := 0x00CF93000000FFFF#64 }
      ∧ r.es = r.ds ∧ r.fs = r.ds ∧ r.gs = r.ds ∧ r.ss = r.ds := by
  obtain ⟨code, data, hcode, hdata, hrcs, hrds, hrest⟩ := h
  rw [hcs, builtGdt_eq_slots] at hcode
  rw [hds, builtGdt_eq_slots] at hdata
  cases hcode
  cases hdata
  exact ⟨by rw [hrcs, hcs]; rfl, by rw [hrds, hds]; rfl, hrest⟩

/-- Settles O22: LOAD_GDT from the state INIT_GDT leaves, whose table is acceptable. -/
theorem loadGdtAfterInitGdtSucceeds : Obligations.LoadGdtAfterInitGdtSucceeds := by
  unfold Obligations.LoadGdtAfterInitGdtSucceeds
  intro s hcs hds
  obtain ⟨hloads, -⟩ := loadGdtLoadsOrIsFatal (resultNone (s.setGdt builtGdt))
  obtain ⟨t, ht, hframe, hsegs, -⟩ := hloads (tableAcceptable_builtGdt hcs hds)
  obtain ⟨hcode, hdata, hes, hfs, hgs, hss⟩ := segsReloaded_builtGdt hcs hds hsegs
  refine ⟨t, by rw [exec_initGdt_table, andThen_next, ht], ?_, hcode, hdata, hes, hfs, hgs, hss, ?_⟩
  · rw [hframe]
    rfl
  · rw [← builtGdt_eq_slots, hframe]
    exact ⟨rfl, rfl, rfl, rfl, rfl, rfl⟩

end Sys2Proof.Machine

namespace Sys2Proof.Machine

open Sys2Proof

/-! ## The codec laws (42_entry_codec.md R144) -/

/-- No bit of an entry is dropped: 20 + 12 = 32 (R144 item 1). -/
theorem packPte_frameAddress_entryFlags (e : Word) : packPte (frameAddress e) (entryFlags e) = e := by
  apply BitVec.eq_of_toNat_eq
  rw [toNat_packPte, toNat_frameAddress, entryFlags, BitVec.toNat_setWidth]
  omega

@[simp] theorem entryFlags_packPte (pa : Word) (fl : FlagsRecord) : entryFlags (packPte pa fl) = fl := by
  apply BitVec.eq_of_toNat_eq
  have hfl := fl.isLt
  rw [entryFlags, BitVec.toNat_setWidth, toNat_packPte]
  omega

/-- The low 12 address bits never matter (R144 item 3). -/
@[simp] theorem packPte_alignPage (pa : Word) (fl : FlagsRecord) : packPte (alignPage pa) fl = packPte pa fl := by
  apply BitVec.eq_of_toNat_eq
  rw [toNat_packPte, toNat_packPte, toNat_alignPage, Nat.mul_div_cancel _ (by omega)]

/-- The mask of a field has exactly the field's bits. -/
theorem getLsbD_fieldMask (lo width i : Nat) (hi : i < 32) :
    (fieldMask lo width).getLsbD i = decide (lo ≤ i ∧ i < lo + width) := by
  rw [fieldMask, BitVec.getLsbD_shiftLeft, BitVec.getLsbD_ofNat, Nat.testBit_two_pow_sub_one, Bool.eq_iff_iff]
  simp only [Bool.and_eq_true, Bool.not_eq_true', decide_eq_true_eq, decide_eq_false_iff_not]
  omega

/-- A bit inside the field is the value's, a bit outside it is the old entry's (R144 item 4). -/
theorem getLsbD_setField (e v : Word) (lo width i : Nat) (hi : i < 32) : (setField e lo width v).getLsbD i
    = if lo ≤ i ∧ i < lo + width then v.getLsbD (i - lo) else e.getLsbD i := by
  simp only [setField, BitVec.getLsbD_or, BitVec.getLsbD_and, BitVec.getLsbD_not, BitVec.getLsbD_shiftLeft,
    getLsbD_fieldMask lo width i hi]
  by_cases hfield : lo ≤ i ∧ i < lo + width
  · have hlo : ¬ i < lo := by omega
    simp [hfield, hi, hlo]
  · simp [hfield, hi]

/-- Settles O24: the two encoders pack alike, so items 1 to 3 are the lemmas about `packPte`; item 4 is
`getLsbD_setField`. -/
theorem codecLaws : Obligations.CodecLaws := by
  unfold Obligations.CodecLaws
  simp only [packPde_eq_packPte, and_self]
  refine ⟨packPte_frameAddress_entryFlags, fun pa fl => ?_, fun pa fl => (packPte_alignPage pa fl).symm,
    fun e v lo width i _ hi => getLsbD_setField e v lo width i hi⟩
  have hframe : frameAddress (packPte pa fl) = pa &&& 0xFFFFF000#32 := frameAddress_packPte pa fl
  exact ⟨hframe, entryFlags_packPte pa fl, hframe, entryFlags_packPte pa fl⟩

end Sys2Proof.Machine

namespace Sys2Proof.Machine

open Sys2Proof

/-! ## The address translator (43_address_translator.md R160 to R171) -/

theorem toNat_virtToPhys (base v : Word) :
    (virtToPhys base v).toNat = if base.toNat ≤ v.toNat then v.toNat - base.toNat else v.toNat := by
  by_cases h : base ≤ v
  · rw [virtToPhys, if_pos h, if_pos (BitVec.le_def.mp h), BitVec.toNat_sub_of_le h]
  · rw [virtToPhys, if_neg h, if_neg (mt BitVec.le_def.mpr h)]

theorem toNat_physToVirt (base p : Word) : (physToVirt base p).toNat = (p.toNat + base.toNat) % 2 ^ 32 :=
  BitVec.toNat_add p base

/-- The one result of a translator operation, known as a number. -/
theorem resultWord_of_toNat (s : State) {y : Word} {n : Nat} (hy : y.toNat = n) :
    resultWord s y = { s with y0 := some (BitVec.ofNat 32 n), y1 := none, ok := none } := by
  rw [← hy, BitVec.ofNat_toNat, BitVec.setWidth_eq]
  rfl

theorem exec_v2p (v : Word) (s : State) :
    exec (.v2p v) s = .next (resultWord s (virtToPhys s.cfg.kernelVirtualBase v)) := rfl

theorem exec_p2v (p : Word) (s : State) :
    exec (.p2v p) s = .next (resultWord s (physToVirt s.cfg.kernelVirtualBase p)) := rfl

theorem exec_dirIdx (v : Word) (s : State) : exec (.dirIdx v) s = .next (resultWord s (dirIndex v)) := rfl

theorem exec_tblIdx (v : Word) (s : State) : exec (.tblIdx v) s = .next (resultWord s (tblIndex v)) := rfl

theorem exec_pgOff (v : Word) (s : State) : exec (.pgOff v) s = .next (resultWord s (pageOffset v)) := rfl

theorem exec_frameAddr (e : Word) (s : State) : exec (.frameAddr e) s = .next (resultWord s (frameAddress e)) := rfl

/-- Settles O25: each operation answers its function of the operand, which the `toNat_` lemmas give as a number. -/
theorem translatorComputesItsResults : Obligations.TranslatorComputesItsResults := by
  unfold Obligations.TranslatorComputesItsResults
  intro s v
  rw [exec_v2p, exec_p2v, exec_dirIdx, exec_tblIdx, exec_pgOff, exec_frameAddr,
    resultWord_of_toNat s (toNat_virtToPhys _ v), resultWord_of_toNat s (toNat_physToVirt _ v),
    resultWord_of_toNat s (toNat_dirIndex v), resultWord_of_toNat s (toNat_tblIndex v),
    resultWord_of_toNat s (toNat_pageOffset v), resultWord_of_toNat s (toNat_frameAddress v)]
  exact ⟨rfl, rfl, rfl, rfl, rfl, rfl⟩

/-! ### The round trips (R162) -/

/-- Below `2^32 - base` P2V does not wrap, so its result is at or above the base and V2P takes the base off again. -/
theorem virtToPhys_physToVirt_of_lt {base p : Word} (h : p.toNat < 2 ^ 32 - base.toNat) :
    virtToPhys base (physToVirt base p) = p := by
  apply BitVec.eq_of_toNat_eq
  have hnowrap : (physToVirt base p).toNat = p.toNat + base.toNat := by
    rw [toNat_physToVirt]
    omega
  rw [toNat_virtToPhys, hnowrap, if_pos (Nat.le_add_left _ _), Nat.add_sub_cancel]

/-- From `2^32 - base` on P2V wraps to an address below the base, which V2P answers unchanged. -/
theorem toNat_virtToPhys_physToVirt_of_ge {base p : Word} (h : 2 ^ 32 - base.toNat ≤ p.toNat) :
    (virtToPhys base (physToVirt base p)).toNat = p.toNat + base.toNat - 2 ^ 32 := by
  have hp := p.isLt
  have hbase := base.isLt
  have hwrap : (physToVirt base p).toNat = p.toNat + base.toNat - 2 ^ 32 := by
    rw [toNat_physToVirt]
    omega
  rw [toNat_virtToPhys, hwrap, if_neg (by omega)]

theorem virtToPhys_physToVirt_iff (base p : Word) :
    virtToPhys base (physToVirt base p) = p ↔ p.toNat < 2 ^ 32 - base.toNat := by
  refine ⟨fun heq => ?_, virtToPhys_physToVirt_of_lt⟩
  by_contra hge
  have hbase := base.isLt
  have hp := toNat_virtToPhys_physToVirt_of_ge (Nat.le_of_not_lt hge)
  rw [heq] at hp
  omega

/-- Below the base V2P is the identity, and adding a non-zero base changes the word. -/
theorem physToVirt_virtToPhys_iff {base : Word} (hbase : base ≠ 0#32) (v : Word) :
    physToVirt base (virtToPhys base v) = v ↔ base.toNat ≤ v.toNat := by
  by_cases h : base ≤ v
  · simp [virtToPhys, physToVirt, h, BitVec.le_def.mp h]
  · have hlt : ¬ base.toNat ≤ v.toNat := mt BitVec.le_def.mpr h
    simp [virtToPhys, physToVirt, h, hlt, hbase]

/-- Settles O26: the round trip from a physical address by the case of the wrap, the other by the case of the base. -/
theorem addressRoundTripsHoldExactlyThere : Obligations.AddressRoundTripsHoldExactlyThere := by
  unfold Obligations.AddressRoundTripsHoldExactlyThere
  exact fun base hbase => ⟨fun p => ⟨virtToPhys_physToVirt_iff base p, toNat_virtToPhys_physToVirt_of_ge⟩,
    physToVirt_virtToPhys_iff hbase⟩

/-! ### The page offset through V2P and P2V (R163) -/

/-- The kernel's base is page-aligned (R6). -/
theorem Config.kernelVirtualBase_aligned {c : Config} (h : c.wf = true) : c.kernelVirtualBase.toNat % 4096 = 0 := by
  simp only [Config.wf, Bool.and_eq_true, decide_eq_true_eq] at h
  obtain ⟨⟨⟨-, hlow⟩, -⟩, -⟩ := h
  simpa using congrArg BitVec.toNat hlow

theorem virtToPhys_mod_page {base : Word} (hbase : base.toNat % 4096 = 0) (v : Word) :
    (virtToPhys base v).toNat % 4096 = v.toNat % 4096 := by
  rw [toNat_virtToPhys]
  split <;> omega

theorem physToVirt_mod_page {base : Word} (hbase : base.toNat % 4096 = 0) (p : Word) :
    (physToVirt base p).toNat % 4096 = p.toNat % 4096 := by
  rw [toNat_physToVirt]
  omega

theorem y0_of_next_resultWord {s t : State} {x y : Word} (h : (.next (resultWord s x) : Res State) = .next t)
    (hy : t.y0 = some y) : y = x := by
  cases h
  exact (Option.some.inj hy).symm

/-- Settles O27: the base is a multiple of the page size, so adding or subtracting it keeps the address modulo that
size. -/
theorem translationKeepsThePageOffset : Obligations.TranslationKeepsThePageOffset := by
  unfold Obligations.TranslationKeepsThePageOffset
  intro s t v y hwf hexec hy
  have hbase := Config.kernelVirtualBase_aligned hwf
  have hmod : y.toNat % 4096 = v.toNat % 4096 := by
    rw [exec_v2p, exec_p2v] at hexec
    obtain hv2p | hp2v := hexec
    · rw [y0_of_next_resultWord hv2p hy, virtToPhys_mod_page hbase]
    · rw [y0_of_next_resultWord hp2v hy, physToVirt_mod_page hbase]
  refine ⟨BitVec.eq_of_toNat_eq ?_, fun haligned => hmod.trans haligned⟩
  rw [toNat_pageOffset, toNat_pageOffset, hmod]

/-! ### The fields of an address (R170) -/

/-- A word shifted up by `n` and a word below `2^n` have no bit in common. -/
theorem shiftLeft_and_eq_zero {x y : Word} {n : Nat} (hy : y.toNat < 2 ^ n) : x <<< n &&& y = 0#32 := by
  apply BitVec.eq_of_getLsbD_eq
  intro i hi
  rw [BitVec.getLsbD_and, BitVec.getLsbD_shiftLeft, BitVec.getLsbD_zero]
  by_cases h : i < n
  · simp [h]
  · have hbit : y.getLsbD i = false :=
      Nat.testBit_lt_two_pow (hy.trans_le (Nat.pow_le_pow_right (by omega) (Nat.le_of_not_lt h)))
    rw [hbit, Bool.and_false]

theorem toNat_pageOffset_lt (v : Word) : (pageOffset v).toNat < 2 ^ 12 := by
  rw [toNat_pageOffset]
  omega

theorem frameAddress_and_pageOffset (e v : Word) : frameAddress e &&& pageOffset v = 0#32 := by
  rw [frameAddress, and_frameMask]
  exact shiftLeft_and_eq_zero (toNat_pageOffset_lt v)

theorem frameAddress_or_pageOffset (e v : Word) : frameAddress e ||| pageOffset v = frameAddress e + pageOffset v :=
  (BitVec.add_eq_or_of_and_eq_zero _ _ (frameAddress_and_pageOffset e v)).symm

theorem frameAddress_add_pageOffset (v : Word) : frameAddress v + pageOffset v = v := by
  apply BitVec.eq_of_toNat_eq
  rw [BitVec.toNat_add, toNat_frameAddress, toNat_pageOffset, Nat.div_add_mod', Nat.mod_eq_of_lt v.isLt]

theorem toNat_dirIndex_shiftLeft (v : Word) : (dirIndex v <<< 22).toNat = v.toNat / 4194304 * 4194304 := by
  have hv := v.isLt
  rw [BitVec.toNat_shiftLeft, toNat_dirIndex, Nat.shiftLeft_eq]
  omega

theorem toNat_tblIndex_shiftLeft (v : Word) : (tblIndex v <<< 12).toNat = v.toNat / 4096 % 1024 * 4096 := by
  rw [BitVec.toNat_shiftLeft, toNat_tblIndex, Nat.shiftLeft_eq]
  omega

theorem dirIndex_and_tblIndex (v : Word) : (dirIndex v <<< 22) &&& (tblIndex v <<< 12) = 0#32 :=
  shiftLeft_and_eq_zero (by rw [toNat_tblIndex_shiftLeft]; omega)

/-- The two indices in their places are the address without its page offset. -/
theorem dirIndex_or_tblIndex (v : Word) : (dirIndex v <<< 22) ||| (tblIndex v <<< 12) = frameAddress v := by
  rw [← BitVec.add_eq_or_of_and_eq_zero _ _ (dirIndex_and_tblIndex v)]
  apply BitVec.eq_of_toNat_eq
  rw [BitVec.toNat_add, toNat_dirIndex_shiftLeft, toNat_tblIndex_shiftLeft, toNat_frameAddress]
  omega

/-- Settles O28: the two indices make the frame address, which composes with the page offset by addition. -/
theorem addressFieldsPartitionTheWord : Obligations.AddressFieldsPartitionTheWord := by
  unfold Obligations.AddressFieldsPartitionTheWord
  intro v e
  have hoff := toNat_pageOffset_lt v
  refine ⟨?_, dirIndex_and_tblIndex v, shiftLeft_and_eq_zero (by omega), shiftLeft_and_eq_zero hoff,
    frameAddress_and_pageOffset e v, frameAddress_or_pageOffset e v⟩
  rw [dirIndex_or_tblIndex, frameAddress_or_pageOffset, frameAddress_add_pageOffset]

/-! ### Page alignment (R171) -/

theorem alignPage_eq_sub (a : Word) : alignPage a = a - pageOffset a :=
  BitVec.eq_sub_iff_add_eq.mpr (frameAddress_add_pageOffset a)

@[simp] theorem pageOffset_alignPage (a : Word) : pageOffset (alignPage a) = 0#32 := by
  apply BitVec.eq_of_toNat_eq
  rw [toNat_pageOffset, toNat_alignPage, Nat.mul_mod_left]
  rfl

theorem exec_mapPage (virt phys : Word) (pf tf : FlagsRecord) (s : State) : exec (.mapPage virt phys pf tf) s
    = runManager (.map { virt := alignPage virt, phys := alignPage phys, pdeFlags := pf, pteFlags := tf }) s := rfl

/-- Settles O29: MAP_PAGE aligns its addresses itself, and aligning twice is aligning once. -/
theorem pageAlignmentAndItsUse : Obligations.PageAlignmentAndItsUse := by
  unfold Obligations.PageAlignmentAndItsUse
  refine ⟨fun a => ⟨rfl, alignPage_eq_sub a, dirIndex_alignPage a, tblIndex_alignPage a, pageOffset_alignPage a⟩,
    fun s virt phys pf tf => ?_⟩
  rw [exec_mapPage, exec_mapPage, alignPage_alignPage, alignPage_alignPage]

end Sys2Proof.Machine

namespace Sys2Proof.Machine

open Sys2Proof

/-! ## The paging manager (44_paging_manager.md) -/

/-! ### Binding the manager (R184, R185) -/

theorem exec_initRt (s : State) :
    exec .initRt s = .next (resultNone (s.bind (s.cfg.bootPageDirectory.extractLsb' 12 20))) := rfl

/-- Settles O30: the directory INIT_RT binds is a parameter, which it leaves as it is. -/
theorem initRtBindsTheBootDirectory : Obligations.InitRtBindsTheBootDirectory := by
  unfold Obligations.InitRtBindsTheBootDirectory
  intro s
  have hdir : s.cfg.bootPageDirectory.extractLsb' 12 20 = BitVec.ofNat 20 (s.cfg.bootPageDirectory.toNat / 4096) := by
    rw [BitVec.extractLsb', Nat.shiftRight_eq_div_pow]
  rw [← hdir]
  exact ⟨_, exec_initRt s, rfl, rfl⟩

/-! ### The steps of an operation in progress (R182, R209) -/

theorem step_nextPhase_idle {s : State} {rest : List Input} (hin : s.inputs = .nextPhase :: rest) (hidle : s.ph = .idle) :
    step s = .next (cpuTurn (s.setInputs rest)) := by
  rw [step_input s _ rest hin, takeInput, runPhases_idle 1 _ (by simpa using hidle)]

/-- With nothing waiting an operation in progress takes its next phase. -/
theorem step_no_input_busy {s : State} (hin : s.inputs = []) (hbusy : s.ph ≠ .idle) : step s = phaseStep s := by
  rw [step_no_input s hin, continueBlock_busy s hbusy]

/-- Settles O9: the four steps are the two of `continueBlock` and the two of `nextPhase`. -/
theorem stepWithNoInputContinuesTheOperation : Obligations.StepWithNoInputContinuesTheOperation := by
  unfold Obligations.StepWithNoInputContinuesTheOperation
  intro s u hu
  have hturn : ∀ rest, s.inputs.tail = rest → cpuTurn (s.setInputs rest) = u := by
    rintro rest rfl
    rw [hu, cpuTurn_setInputs]
  refine ⟨fun hin hidle => ?_, fun hin hbusy => step_no_input_busy hin hbusy, fun rest hin hidle => ?_,
    fun rest hin hbusy => ?_⟩
  · have hsame : s.setInputs s.inputs.tail = s := by
      rw [hin, List.tail_nil, ← hin]
      rfl
    rw [step_no_input s hin, continueBlock_idle s hidle, ← hturn _ rfl, hsame]
  · rw [step_nextPhase_idle hin hidle, hturn rest (by rw [hin, List.tail_cons])]
  · rw [step_nextPhase hin hbusy, hturn rest (by rw [hin, List.tail_cons])]

/-- Where a phase can lead: to a phase with fewer phases left than its own (R182). -/
theorem phaseAction_phasesLeft {s t : State} (h : phaseAction s = .next t) :
    phasesLeft t.ph ≤ phasesLeft s.ph - 1 := by
  unfold phaseAction at h
  cases hp : s.ph with
  | idle =>
    simp only [hp] at h
    cases h
    rw [hp]
    decide
  | check op =>
    simp only [hp, phaseCheck] at h
    split at h <;> cases h <;> simp [phasesLeft]
  | rdPde op =>
    simp only [hp, phaseRdPde, andThen_eq_next] at h
    obtain ⟨pde, -, h⟩ := h
    split at h
    · cases op <;> cases h <;> simp [phasesLeft]
    · cases h
      simp [phasesLeft]
  | wrPde m pde =>
    simp only [hp, phaseWrPde, andThen_eq_next] at h
    obtain ⟨u, -, h⟩ := h
    cases h
    simp [phasesLeft]
  | rdPte k v pde =>
    simp only [hp, phaseRdPte, andThen_eq_next] at h
    obtain ⟨pte, -, h⟩ := h
    split at h
    · cases k <;> cases h <;> simp [phasesLeft]
    · cases h
      simp [phasesLeft]
  | wrPte v pde e =>
    simp only [hp, phaseWrPte, andThen_eq_next] at h
    obtain ⟨u, -, h⟩ := h
    cases h
    simp [phasesLeft]
  | inval =>
    simp only [hp, phaseInval] at h
    split at h <;> cases h
    simp [phasesLeft]
  | lgdt =>
    simp only [hp, phaseLgdt] at h
    cases h
    simp [phasesLeft]
  | reload =>
    simp only [hp, phaseReload, andThen_eq_next] at h
    obtain ⟨u, -, h⟩ := h
    cases h
    simp [phasesLeft]

theorem phaseStep_phasesLeft {s t : State} (h : phaseStep s = .next t) : phasesLeft t.ph ≤ phasesLeft s.ph - 1 := by
  obtain ⟨u, hu, rfl⟩ := (phaseStep_eq_next s t).1 h
  simpa using phaseAction_phasesLeft hu

theorem idle_of_phasesLeft_eq_zero {p : Phase} (h : phasesLeft p = 0) : p = .idle := by
  cases p <;> simp_all [phasesLeft]

theorem phasesLeft_le_five (p : Phase) : phasesLeft p ≤ 5 := by
  cases p <;> simp [phasesLeft]

/-- With nothing waiting a step leaves nothing waiting, and one phase fewer. -/
theorem step_no_input_next {s t : State} (hin : s.inputs = []) (h : step s = .next t) :
    t.inputs = [] ∧ phasesLeft t.ph ≤ phasesLeft s.ph - 1 := by
  by_cases hidle : s.ph = .idle
  · rw [step_no_input s hin, continueBlock_idle s hidle] at h
    cases h
    exact ⟨hin, by simp [hidle, phasesLeft]⟩
  · rw [step_no_input_busy hin hidle] at h
    exact ⟨(phaseStep_frame h).inputs.trans hin, phaseStep_phasesLeft h⟩

/-- As many steps as there are phases left, or more, end in IDLE. -/
theorem run_no_input_ends_idle (n : Nat) {s t : State} (hin : s.inputs = []) (hn : phasesLeft s.ph ≤ n)
    (h : Host.Core.run core n s = .next t) : t.ph = .idle := by
  induction n generalizing s with
  | zero =>
    rw [run_zero] at h
    cases h
    exact idle_of_phasesLeft_eq_zero (by omega)
  | succ n ih =>
    obtain ⟨u, hu, h⟩ := (andThen_eq_next _ _ _).1 ((run_succ n s).symm.trans h)
    obtain ⟨huin, hleft⟩ := step_no_input_next hin hu
    exact ih huin (by omega) h

/-- Settles O59: every step takes one of the phases left, and no phase has more than five. -/
theorem everyOperationRunsOutInFiveSteps : Obligations.EveryOperationRunsOutInFiveSteps := by
  unfold Obligations.EveryOperationRunsOutInFiveSteps
  exact fun s _ hin h => run_no_input_ends_idle 5 hin (phasesLeft_le_five s.ph) h

/-! ### The two forms of issuing (R182, R209; log 5) -/

/-- With nothing waiting, a run of phases is a run of at most as many steps: the one stands still in IDLE, where the other
stops. -/
theorem exists_run_eq_runPhases (n : Nat) {s : State} (hin : s.inputs = []) :
    ∃ k ≤ n, Host.Core.run core k s = runPhases n s := by
  induction n generalizing s with
  | zero => exact ⟨0, le_rfl, rfl⟩
  | succ n ih =>
    by_cases hidle : s.ph = .idle
    · exact ⟨0, Nat.zero_le _, (runPhases_idle _ _ hidle).symm⟩
    · rw [runPhases_succ _ _ hidle]
      have hstep := step_no_input_busy hin hidle
      cases hs : phaseStep s with
      | next t =>
        obtain ⟨k, hk, hrun⟩ := ih ((phaseStep_frame hs).inputs.trans hin)
        exact ⟨k + 1, by omega, by rw [run_of_step (hstep.trans hs), hrun, andThen_next]⟩
      | fault e => exact ⟨1, by omega, by rw [run_succ, hstep, hs]; rfl⟩
      | refused e => exact ⟨1, by omega, by rw [run_succ, hstep, hs]; rfl⟩

/-- An operation that leaves IDLE is, whole, its phases from the first on: at most five (R209). -/
theorem exec_eq_runPhases_of_firstPhase {i : Instr} {p : Phase} (hi : firstPhase i = some p) (s : State) :
    ∃ n ≤ 5, exec i s = runPhases n ((resultNone s).setPhase p) := by
  cases i with
  | loadGdt r =>
    cases r with
    | null => cases hi
    | table =>
      cases hi
      exact ⟨2, by omega, rfl⟩
  | mapPage | unmapPage | getPhys | isMapped =>
    cases hi
    exact ⟨5, le_rfl, rfl⟩
  | _ => cases hi

/-- Begun with nothing waiting, an operation ends within five steps as it ends run whole. -/
theorem exists_run_beginOp_eq_exec (i : Instr) {s : State} (hin : s.inputs = []) :
    ∃ k ≤ 5, andThen (β := State) (beginOp i s) (Host.Core.run core k) = exec i s := by
  unfold beginOp
  cases hi : firstPhase i with
  | none =>
    refine ⟨0, Nat.zero_le _, ?_⟩
    dsimp only
    cases exec i s <;> rfl
  | some p =>
    obtain ⟨n, hn, hexec⟩ := exec_eq_runPhases_of_firstPhase hi s
    obtain ⟨k, hk, hrun⟩ := exists_run_eq_runPhases n (s := (resultNone s).setPhase p) hin
    exact ⟨k, by omega, by rw [hexec, ← hrun]; rfl⟩

/-- The step of a stepwise issue in IDLE (R11; log 5). -/
theorem step_issueStepwise {s : State} {code : Byte} {rest : List Input} {i : Instr}
    (hin : s.inputs = .issueStepwise code :: rest) (hidle : s.ph = .idle)
    (hdec : decodeOperation { op := code, a0 := s.a0, a1 := s.a1, a2 := s.a2, a3 := s.a3 } = .ok i) :
    step s = beginOp i ((cpuTurn (s.setInputs rest)).setOp code) := by
  have hcmd : decodeOperation ((cpuTurn (s.setInputs rest)).setOp code).command = .ok i := hdec
  rw [step_input s _ rest hin, takeInput, whenIdle_idle (by simpa using hidle), hcmd, beginDecoded]

/-- Settles O7: the first step begins the operation, and the steps that follow are its phases. -/
theorem stepwiseIssueReachesTheAtomicResult : Obligations.StepwiseIssueReachesTheAtomicResult := by
  unfold Obligations.StepwiseIssueReachesTheAtomicResult
  intro s s' code i hin hidle hdec hs'
  have hstep : step s = beginOp i s' := by
    rw [step_issueStepwise hin hidle hdec, cpuTurn_setInputs, hs']
    rfl
  obtain ⟨k, hk, hrun⟩ := exists_run_beginOp_eq_exec i (s := s') (by rw [hs'])
  rw [← hstep, ← run_succ] at hrun
  exact ⟨fun t ht => ⟨k, hk, hrun.trans ht⟩, fun e he => ⟨k, hk, hrun.trans he⟩, fun e he => ⟨k, hk, hrun.trans he⟩⟩

end Sys2Proof.Machine

namespace Sys2Proof.Machine

open Sys2Proof

/-! ### Operations that only read (R181, R189, R200, R203, 60_exceptions.md R253) -/

/-- From `s` to `t` an operation has read and done nothing else: the result ports, the phase and the TLB apart, `t` is `s`, and
the TLB is what the CPU's turns leave. -/
structure OnlyReads (s t : State) : Prop where
  frame : { t with y0 := s.y0, y1 := s.y1, ok := s.ok, ph := s.ph, tlb := s.tlb, cpuTick := s.cpuTick } = s
  acts : OnlyCpuActs s t

theorem OnlyReads.atRdPde (op : MgrOp) (s : State) : OnlyReads s (atRdPde op s) := ⟨rfl, .atRdPde op s⟩

theorem OnlyReads.setPhase {s t : State} (h : OnlyReads s t) (p : Phase) : OnlyReads s (t.setPhase p) := ⟨h.frame, h.acts⟩

theorem OnlyReads.setResults {s t : State} (h : OnlyReads s t) (y0 y1 : Option Word) (ok : Option Bool) :
    OnlyReads s (t.setResults y0 y1 ok) := ⟨h.frame, h.acts⟩

theorem OnlyReads.cpuTurn {s t : State} (h : OnlyReads s t) : OnlyReads s (cpuTurn t) := by
  have hcfg : t.cfg = s.cfg := by simpa using congrArg State.cfg h.frame
  have hmem : t.mem = s.mem := by simpa using congrArg State.mem h.frame
  have hcr3 : t.cr3 = s.cr3 := by simpa using congrArg State.cr3 h.frame
  exact ⟨h.frame, h.acts.cpuTurn_of hcfg hmem hcr3⟩

/-- An operation that has only read ends by giving its answer. -/
theorem OnlyReads.answer {s t : State} (h : OnlyReads s t) (y0 : Option Word) (ok : Option Bool) :
    OnlyAnswers s (Machine.cpuTurn ((t.setResults y0 none ok).setPhase .idle)) y0 ok := by
  refine ⟨?_, ((h.setResults y0 none ok).setPhase .idle).cpuTurn.acts⟩
  exact congrArg (fun u : State => { u with
    y0 := y0, y1 := none, ok := ok, ph := .idle
    tlb := (Machine.cpuTurn ((t.setResults y0 none ok).setPhase .idle)).tlb, cpuTick := t.cpuTick + 1 }) h.frame

theorem OnlyAnswers.y0_eq {s t : State} {y0 : Option Word} {ok : Option Bool} (h : OnlyAnswers s t y0 ok) : t.y0 = y0 :=
  congrArg State.y0 h.1

theorem OnlyAnswers.ok_eq {s t : State} {y0 : Option Word} {ok : Option Bool} (h : OnlyAnswers s t y0 ok) : t.ok = ok :=
  congrArg State.ok h.1

theorem OnlyAnswers.mem_eq {s t : State} {y0 : Option Word} {ok : Option Bool} (h : OnlyAnswers s t y0 ok) : t.mem = s.mem := by
  simpa using congrArg State.mem h.1

/-- The state in phase RD_PTE. -/
def atRdPte (k : QueryKind) (v pde : Word) (s : State) : State :=
  cpuTurn ((atRdPde (.query k v) s).setPhase (.rdPte k v pde))

theorem OnlyReads.atRdPte (k : QueryKind) (v pde : Word) (s : State) : OnlyReads s (atRdPte k v pde s) :=
  ((OnlyReads.atRdPde (.query k v) s).setPhase _).cpuTurn

/-- An absent PDE ends every manager operation (R189). -/
theorem runManager_absentPde {op : MgrOp} {s : State} {pde : Word} (hb : s.bound = true)
    (hpde : readWord s (pdeAddr s (mgrVirt op)) = .next pde) (hp : entryP pde = false) :
    ∃ t, runManager op s = .next t ∧ OnlyAnswers s t none (some false) := by
  rw [runManager_bound _ _ hb, hpde, andThen_next, if_neg (by simp [hp])]
  exact ⟨_, rfl, (OnlyReads.atRdPde op s).answer none (some false)⟩

/-- Past a present PDE the queries read the PTE. -/
theorem runManager_query_present {k : QueryKind} {v pde : Word} {s : State} (hb : s.bound = true)
    (hpde : readWord s (pdeAddr s v) = .next pde) (hp : entryP pde = true) :
    runManager (.query k v) s = runPhases 3 (atRdPte k v pde s) := by
  rw [runManager_bound _ _ hb, mgrVirt, hpde, andThen_next, if_pos hp]
  rfl

section Query

variable {k : QueryKind} {v pde pte : Word} {s : State} (hb : s.bound = true)
  (hpde : readWord s (pdeAddr s v) = .next pde) (hp : entryP pde = true) (hpte : readWord s (pteAddr pde v) = .next pte)
include hb hpde hp hpte

/-- An absent PTE ends every query (R195, R200, R203). -/
theorem runManager_absentPte (hp' : entryP pte = false) :
    ∃ t, runManager (.query k v) s = .next t ∧ OnlyAnswers s t none (some false) := by
  have hpte' : readWord (atRdPde (.query k v) s) (pteAddr pde v) = .next pte := hpte
  rw [runManager_query_present hb hpde hp, atRdPte, runPhases_rdPte, hpte', andThen_next, if_neg (by simp [hp'])]
  exact ⟨_, rfl, (OnlyReads.atRdPte k v pde s).answer none (some false)⟩

theorem runManager_getPhys_answers (hp' : entryP pte = true) :
    ∃ t, runManager (.query .getPhys v) s = .next t
      ∧ OnlyAnswers s t (some (frameAddress pte ||| pageOffset v)) (some true) := by
  have hpte' : readWord (atRdPde (.query .getPhys v) s) (pteAddr pde v) = .next pte := hpte
  rw [runManager_query_present hb hpde hp, atRdPte, runPhases_rdPte, hpte', andThen_next, if_pos hp']
  exact ⟨_, rfl, (OnlyReads.atRdPte .getPhys v pde s).answer _ (some true)⟩

theorem runManager_isMapped_answers (hp' : entryP pte = true) :
    ∃ t, runManager (.query .isMapped v) s = .next t ∧ OnlyAnswers s t none (some true) := by
  have hpte' : readWord (atRdPde (.query .isMapped v) s) (pteAddr pde v) = .next pte := hpte
  rw [runManager_query_present hb hpde hp, atRdPte, runPhases_rdPte, hpte', andThen_next, if_pos hp']
  exact ⟨_, rfl, (OnlyReads.atRdPte .isMapped v pde s).answer none (some true)⟩

end Query

/-- Settles O32: RD_PDE fails on an absent PDE, before anything is written. -/
theorem absentPdeFailsAndTouchesNothing : Obligations.AbsentPdeFailsAndTouchesNothing := by
  unfold Obligations.AbsentPdeFailsAndTouchesNothing
  intro s virt phys pde pf tf hb hbacked hpde hp i hi
  obtain ⟨op, hop, hpdeAt, -⟩ := exec_managerOp hi s
  rw [hop]
  exact runManager_absentPde hb ((readWord_eq_next _ _ _).2 (by rw [hpdeAt]; exact ⟨hbacked, hpde⟩)) hp

/-- Settles O33: RD_PTE fails on an absent PTE, before anything is written. -/
theorem absentPteFailsAndTouchesNothing : Obligations.AbsentPteFailsAndTouchesNothing := by
  unfold Obligations.AbsentPteFailsAndTouchesNothing
  intro s virt pde pte hb hbacked hpde hp hbacked' hpte hp' i hi
  obtain ⟨k, hk⟩ := exec_query hi s
  rw [hk]
  exact runManager_absentPte hb ((readWord_eq_next _ _ _).2 ⟨hbacked, hpde⟩) hp
    ((readWord_eq_next _ _ _).2 ⟨hbacked', hpte⟩) hp'

/-- The address GET_PHYS answers, as a number (R200). -/
theorem frameAddress_or_pageOffset_eq_ofNat (e v : Word) :
    frameAddress e ||| pageOffset v = BitVec.ofNat 32 (e.toNat / 4096 * 4096 + v.toNat % 4096) := by
  apply BitVec.eq_of_toNat_eq
  rw [frameAddress_or_pageOffset, BitVec.toNat_add, toNat_frameAddress, toNat_pageOffset, BitVec.toNat_ofNat]

/-- Settles O38: both queries find the two entries present, and answer in RD_PTE. -/
theorem queriesAnswerOnAMappedPage : Obligations.QueriesAnswerOnAMappedPage := by
  unfold Obligations.QueriesAnswerOnAMappedPage
  intro s virt pde pte hb hbacked hpde hp hbacked' hpte hp'
  have hreadPde : readWord s (pdeAddr s virt) = .next pde := (readWord_eq_next _ _ _).2 ⟨hbacked, hpde⟩
  have hreadPte : readWord s (pteAddr pde virt) = .next pte := (readWord_eq_next _ _ _).2 ⟨hbacked', hpte⟩
  rw [← frameAddress_or_pageOffset_eq_ofNat]
  exact ⟨runManager_getPhys_answers hb hreadPde hp hreadPte hp', runManager_isMapped_answers hb hreadPde hp hreadPte hp'⟩

/-- Past a present PDE the walk reads the PTE. -/
theorem walk_of_present {s : State} {v pde : Word} (hpde : readWord s (pdeAddr s v) = .next pde) (hp : entryP pde = true) :
    walk s v = andThen (readWord s (pteAddr pde v)) fun pte =>
      if entryP pte then .next (.mapped pde pte) else .next (.noPte pde) := by
  have hpde' : readWord s (pdeAddrIn (dirBase s) v) = .next pde := hpde
  rw [walk, walkFrom, hpde', andThen_next, if_pos hp]

theorem walk_of_absentPde {s : State} {v pde : Word} (hpde : readWord s (pdeAddr s v) = .next pde) (hp : entryP pde = false) :
    walk s v = .next .noPde := by
  have hpde' : readWord s (pdeAddrIn (dirBase s) v) = .next pde := hpde
  rw [walk, walkFrom, hpde', andThen_next, if_neg (by simp [hp])]

/-- Settles O39: the phase machine reads the entries the walk reads, in its order, and makes its two tests. -/
theorem getPhysIsTheWalk : Obligations.GetPhysIsTheWalk := by
  unfold Obligations.GetPhysIsTheWalk
  intro s virt hb
  have hexec : exec (.getPhys virt) s = runManager (.query .getPhys virt) s := rfl
  rw [hexec]
  cases hpde : readWord s (pdeAddr s virt) with
  | fault e | refused e =>
    have hwalk : walk s virt = andThen (readWord s (pdeAddr s virt)) _ := rfl
    rw [hwalk, runManager_bound _ _ hb, mgrVirt, hpde]
    rfl
  | next pde =>
    cases hp : entryP pde with
    | false =>
      rw [walk_of_absentPde hpde hp]
      exact runManager_absentPde hb hpde hp
    | true =>
      rw [walk_of_present hpde hp]
      cases hpte : readWord s (pteAddr pde virt) with
      | fault e | refused e =>
        have hpte' : readWord (atRdPde (.query .getPhys virt) s) (pteAddr pde virt) = _ := hpte
        rw [runManager_query_present hb hpde hp, atRdPte, runPhases_rdPte, hpte']
        rfl
      | next pte =>
        rw [andThen_next]
        cases hp' : entryP pte with
        | false => exact runManager_absentPte hb hpde hp hpte hp'
        | true => exact runManager_getPhys_answers hb hpde hp hpte hp'

end Sys2Proof.Machine

namespace Sys2Proof.Machine

open Sys2Proof

/-! ### Phases WR_PTE and INVAL, which MAP_PAGE and UNMAP_PAGE end with (R17, R191, R196, R206) -/

/-- The state in phase INVAL, from `u` in WR_PTE: the entry is written and the invalidation recorded. -/
def atInval (v pde e : Word) (u : State) : State :=
  cpuTurn (((u.setMem (putWord u.mem (pteAddr pde v) e)).setPending true v).setPhase .inval)

/-- The state after phase INVAL of the page of `v`, from `u` in INVAL. -/
def afterInval (v : Word) (u : State) : State := cpuTurn (succeedOp ((invalidatePage u v).setPending false v))

theorem runPhases_wrPte_backed (n : Nat) {v pde e : Word} {s : State} (hb : isBacked s.cfg (pteAddr pde v) = true) :
    runPhases (n + 2) (cpuTurn (s.setPhase (.wrPte v pde e)))
      = .next (afterInval v (atInval v pde e (cpuTurn (s.setPhase (.wrPte v pde e))))) := by
  rw [runPhases_wrPte, if_pos hb]
  rfl

/-- Phase INVAL with an invalidation pending. -/
theorem phaseStep_inval {s : State} (hp : s.ph = .inval) (hpend : s.invPending = true) :
    phaseStep s = .next (afterInval s.invAddr s) := by
  simp only [phaseStep, phaseAction, hp, phaseInval, hpend, if_true, andThen_next, afterInval]

/-- After INVAL the page has no entry, or the one a walk of the tables now in memory gives (R206). -/
theorem afterInval_own (v : Word) (u : State) : Store.get (afterInval v u).tlb (v.toNat / 4096) = none
    ∨ Store.get (afterInval v u).tlb (v.toNat / 4096) = cpuFillEntry (afterInval v u) (vpnOf v) := by
  rw [← toNat_vpnOf]
  exact get_cpuTurn_invalidated _ _ (Store.get_del_self _ _)

/-- The two phases write the entry, end the operation and spend the record; what the TLB becomes is said apart. -/
theorem afterInval_atInval_frame (v pde e : Word) (u : State) : afterInval v (atInval v pde e u) =
    { u with
      mem := putWord u.mem (pteAddr pde v) e, y0 := none, y1 := none, ok := some true, ph := .idle
      invPending := false, invAddr := v, tlb := (afterInval v (atInval v pde e u)).tlb, cpuTick := u.cpuTick + 2 } := by
  apply State.ext <;> simp [afterInval, atInval]

/-- The TLB after a CPU turn that follows an update leaving the TLB alone. -/
theorem cpuTurn_tlb_after {s t u : State} {l : Tlb} {k : Nat} (hl : t.tlb = l) (htlb : u.tlb = t.tlb) (hc : u.cfg = s.cfg)
    (hm : u.mem = s.mem) (hr : u.cr3 = s.cr3) (hk : u.cpuTick = k) :
    (cpuTurn u).tlb = tlbActs s l (Config.cpuActs k) := cpuTurn_tlb_of hc hm hr (htlb.trans hl) hk

/-- A page's entry through a CPU turn that follows an update leaving the TLB alone. -/
theorem EntryKeptDroppedOrFilled.cpuTurn_after {s t u : State} {mems : List Memory} {n : PageNumber}
    (h : EntryKeptDroppedOrFilled s t mems n) (htlb : u.tlb = t.tlb) (hc : u.cfg = s.cfg) (hm : u.mem ∈ mems)
    (hr : u.cr3 = s.cr3) : EntryKeptDroppedOrFilled s (cpuTurn u) mems n := by
  have hu : EntryKeptDroppedOrFilled s u mems n := by
    unfold EntryKeptDroppedOrFilled
    rwa [htlb]
  exact hu.cpuTurn_of hc hm hr

section Tail

variable {s u : State} {v pde e : Word}

/-- The TLB the two phases leave, in the terms of a state `s` whose tables are the ones written: a turn, the removal, a
turn. -/
theorem afterInval_atInval_tlb {l : Tlb} {k n : Nat} (hl : u.tlb = l) (hc : u.cfg = s.cfg)
    (hm : putWord u.mem (pteAddr pde v) e = s.mem) (hr : u.cr3 = s.cr3) (hk : u.cpuTick = k) (hn : v.toNat / 4096 = n) :
    (afterInval v (atInval v pde e u)).tlb
      = tlbActs s (Store.del (tlbActs s l (Config.cpuActs k)) n) (Config.cpuActs (k + 1)) := by
  have hturn : (atInval v pde e u).tlb = tlbActs s l (Config.cpuActs k) := by
    rw [atInval]
    exact cpuTurn_tlb_after hl (by simp) (by simpa) (by simpa) (by simpa) (by simpa)
  have hdel : (invalidatePage (atInval v pde e u) v).tlb = Store.del (tlbActs s l (Config.cpuActs k)) n :=
    invalidatePage_tlb_of hturn hn
  rw [afterInval]
  exact cpuTurn_tlb_after hdel (by simp) (by simpa [atInval]) (by simpa [atInval]) (by simpa [atInval]) (by simpa [atInval])

/-- Another page's entry through the two phases. -/
theorem entry_afterInval_atInval {mems : List Memory} {n : PageNumber} (h : EntryKeptDroppedOrFilled s u mems n)
    (hc : u.cfg = s.cfg) (hm : putWord u.mem (pteAddr pde v) e ∈ mems) (hr : u.cr3 = s.cr3)
    (hn : n.toNat ≠ v.toNat / 4096) : EntryKeptDroppedOrFilled s (afterInval v (atInval v pde e u)) mems n := by
  have hturn : EntryKeptDroppedOrFilled s (atInval v pde e u) mems n := by
    rw [atInval]
    exact h.cpuTurn_after (by simp) (by simpa) (by simpa) (by simpa)
  have hdel : EntryKeptDroppedOrFilled s (invalidatePage (atInval v pde e u) v) mems n :=
    hturn.invalidatePage_of (by rwa [toNat_vpnOf])
  rw [afterInval]
  exact hdel.cpuTurn_after (by simp) (by simpa [atInval]) (by simpa [atInval]) (by simpa [atInval])

end Tail

theorem atRdPde_tlb (op : MgrOp) (s : State) : (atRdPde op s).tlb = tlbActs s s.tlb (Config.cpuActs s.cpuTick) := by
  rw [atRdPde]
  exact cpuTurn_tlb_of (by simp) (by simp) (by simp) (by simp) (by simp)

theorem entry_atRdPde {mems : List Memory} (op : MgrOp) {s : State} (hm : s.mem ∈ mems) (n : PageNumber) :
    EntryKeptDroppedOrFilled s (atRdPde op s) mems n := by
  rw [atRdPde]
  exact (EntryKeptDroppedOrFilled.refl s mems n).cpuTurn_after (by simp) (by simp) (by simpa) (by simp)

/-! ### MAP_PAGE on a present PDE (R188, R190, R191) -/

/-- The state in phase WR_PDE. -/
def atWrPde (m : MapArgs) (pde : Word) (s : State) : State := cpuTurn ((atRdPde (.map m) s).setPhase (.wrPde m pde))

/-- The state in phase WR_PTE of MAP_PAGE: the PDE is written. -/
def mapAtWrPte (m : MapArgs) (pde : Word) (s : State) : State :=
  cpuTurn (((atWrPde m pde s).setMem (putWord s.mem (pdeAddr s m.virt) (updatePde s.cfg.pdeFlagMask pde m.pdeFlags))).setPhase
    (.wrPte m.virt pde (packPte m.phys m.pteFlags)))

/-- The state in which a successful MAP_PAGE ends. -/
def afterMap (m : MapArgs) (pde : Word) (s : State) : State :=
  afterInval m.virt (atInval m.virt pde (packPte m.phys m.pteFlags) (mapAtWrPte m pde s))

theorem runManager_map_present {m : MapArgs} {pde : Word} {s : State} (hb : s.bound = true)
    (hpde : readWord s (pdeAddr s m.virt) = .next pde) (hp : entryP pde = true)
    (hpte : isBacked s.cfg (pteAddr pde m.virt) = true) : runManager (.map m) s = .next (afterMap m pde s) := by
  obtain ⟨hbacked, -⟩ := (readWord_eq_next _ _ _).1 hpde
  rw [runManager_bound _ _ hb, mgrVirt, hpde, andThen_next, if_pos hp]
  dsimp only
  rw [runPhases_wrPde, if_pos (by simpa using hbacked), runPhases_wrPte_backed 0 (by simpa using hpte)]
  simp [afterMap, mapAtWrPte, atWrPde]

theorem afterMap_frame (m : MapArgs) (pde : Word) (s : State) : afterMap m pde s =
    { s with
      mem := putWord (putWord s.mem (pdeAddr s m.virt) (updatePde s.cfg.pdeFlagMask pde m.pdeFlags)) (pteAddr pde m.virt)
        (packPte m.phys m.pteFlags)
      y0 := none, y1 := none, ok := some true, ph := .idle, invPending := false, invAddr := m.virt
      tlb := (afterMap m pde s).tlb, cpuTick := s.cpuTick + 5 } := by
  rw [afterMap, afterInval_atInval_frame]
  simp [mapAtWrPte, atWrPde]

section Map

variable {m : MapArgs} {pde : Word} {s : State} {m1 m2 : Memory}
  (hm1 : m1 = putWord s.mem (pdeAddr s m.virt) (updatePde s.cfg.pdeFlagMask pde m.pdeFlags))
  (hm2 : m2 = putWord m1 (pteAddr pde m.virt) (packPte m.phys m.pteFlags))
include hm1 hm2

/-- The TLB through MAP_PAGE: three turns before the PDE's write, one after each write, and INVAL's removal before the
last. -/
theorem afterMap_tlb {n : Nat} (hn : m.virt.toNat / 4096 = n) :
    (afterMap m pde s).tlb = tlbActs { s with mem := m2 } (Store.del (tlbActs { s with mem := m2 }
      (tlbActs { s with mem := m1 } (tlbActs s (tlbActs s s.tlb (Config.cpuActs s.cpuTick)) (Config.cpuActs (s.cpuTick + 1)))
      (Config.cpuActs (s.cpuTick + 2))) (Config.cpuActs (s.cpuTick + 3))) n) (Config.cpuActs (s.cpuTick + 4)) := by
  have hwrPde : (atWrPde m pde s).tlb
      = tlbActs s (tlbActs s s.tlb (Config.cpuActs s.cpuTick)) (Config.cpuActs (s.cpuTick + 1)) := by
    rw [atWrPde]
    exact cpuTurn_tlb_after (atRdPde_tlb (.map m) s) (by simp) (by simp) (by simp) (by simp) (by simp)
  have hwrPte : (mapAtWrPte m pde s).tlb = tlbActs { s with mem := m1 } (tlbActs s (tlbActs s s.tlb
      (Config.cpuActs s.cpuTick)) (Config.cpuActs (s.cpuTick + 1))) (Config.cpuActs (s.cpuTick + 2)) := by
    rw [mapAtWrPte]
    exact cpuTurn_tlb_after hwrPde (by simp) (by simp [atWrPde]) (by simp [hm1]) (by simp [atWrPde]) (by simp [atWrPde])
  rw [afterMap]
  exact afterInval_atInval_tlb hwrPte (by simp [mapAtWrPte, atWrPde]) (by simp [mapAtWrPte, hm1, hm2])
    (by simp [mapAtWrPte, atWrPde]) (by simp [mapAtWrPte, atWrPde]) hn

/-- Another page's entry through MAP_PAGE (R207). -/
theorem entry_afterMap {n : PageNumber} (hn : n.toNat ≠ m.virt.toNat / 4096) :
    EntryKeptDroppedOrFilled s (afterMap m pde s) [s.mem, m1, m2] n := by
  have hrdPde : EntryKeptDroppedOrFilled s (atRdPde (.map m) s) [s.mem, m1, m2] n := entry_atRdPde _ (by simp) n
  have hwrPde : EntryKeptDroppedOrFilled s (atWrPde m pde s) [s.mem, m1, m2] n := by
    rw [atWrPde]
    exact hrdPde.cpuTurn_after (by simp) (by simp) (by simp) (by simp)
  have hwrPte : EntryKeptDroppedOrFilled s (mapAtWrPte m pde s) [s.mem, m1, m2] n := by
    rw [mapAtWrPte]
    exact hwrPde.cpuTurn_after (by simp) (by simp [atWrPde]) (by simp [hm1]) (by simp [atWrPde])
  rw [afterMap]
  exact entry_afterInval_atInval hwrPte (by simp [mapAtWrPte, atWrPde]) (by simp [mapAtWrPte, hm1, hm2])
    (by simp [mapAtWrPte, atWrPde]) hn

end Map

/-- The operands a MAP_PAGE latches (R188). -/
def latchedMap (virt phys : Word) (pf tf : FlagsRecord) : MapArgs where
  virt := alignPage virt
  phys := alignPage phys
  pdeFlags := pf
  pteFlags := tf

theorem exec_mapPage_latched (virt phys : Word) (pf tf : FlagsRecord) (s : State) :
    exec (.mapPage virt phys pf tf) s = runManager (.map (latchedMap virt phys pf tf)) s := exec_mapPage virt phys pf tf s

/-- A MAP_PAGE on a present PDE that leads to memory, in the terms of its operands. -/
theorem exec_mapPage_present {s : State} {virt phys pde : Word} {pf tf : FlagsRecord} (hb : s.bound = true)
    (hpde : readWord s (pdeAddr s virt) = .next pde) (hp : entryP pde = true)
    (hpte : isBacked s.cfg (pteAddr pde virt) = true) :
    exec (.mapPage virt phys pf tf) s = .next (afterMap (latchedMap virt phys pf tf) pde s) := by
  rw [exec_mapPage_latched]
  exact runManager_map_present hb (by simpa [latchedMap] using hpde) hp (by simpa [latchedMap] using hpte)

/-- MAP_PAGE leaves no stale entry of the page (R206). -/
theorem afterMap_own (virt phys pde : Word) (pf tf : FlagsRecord) (s : State) {t : State}
    (ht : t = afterMap (latchedMap virt phys pf tf) pde s) : Store.get t.tlb (virt.toNat / 4096) = none
      ∨ Store.get t.tlb (virt.toNat / 4096) = cpuFillEntry t (vpnOf virt) := by
  have hown := afterInval_own (alignPage virt) (atInval (alignPage virt) pde (packPte (alignPage phys) tf)
    (mapAtWrPte (latchedMap virt phys pf tf) pde s))
  rw [← toNat_vpnOf, vpnOf_alignPage, toNat_vpnOf] at hown
  rw [ht]
  exact hown

/-- Settles O35: the run's state is explicit; its TLB is followed turn by turn. -/
theorem mapPageWritesThePdeAndThePte : Obligations.MapPageWritesThePdeAndThePte := by
  unfold Obligations.MapPageWritesThePdeAndThePte
  intro s virt phys pde pf tf m1 m2 hb hbacked hpde hp hbacked' hm1 hm2
  have hrun : exec (.mapPage virt phys pf tf) s = .next (afterMap (latchedMap virt phys pf tf) pde s) :=
    exec_mapPage_present hb ((readWord_eq_next _ _ _).2 ⟨hbacked, hpde⟩) hp hbacked'
  have hm1' : m1 = putWord s.mem (pdeAddr s (latchedMap virt phys pf tf).virt) (updatePde s.cfg.pdeFlagMask pde pf) := by
    rw [latchedMap, pdeAddr_alignPage]
    exact hm1
  have hm2' : m2 = putWord m1 (pteAddr pde (latchedMap virt phys pf tf).virt) (packPte (alignPage phys) tf) := by
    rw [latchedMap, pteAddr_alignPage, packPte_alignPage]
    exact hm2
  have hpage : (latchedMap virt phys pf tf).virt.toNat / 4096 = virt.toNat / 4096 := by
    rw [latchedMap, ← toNat_vpnOf, vpnOf_alignPage, toNat_vpnOf]
  refine ⟨_, hrun, ?_, afterMap_tlb hm1' hm2' hpage, afterMap_own virt phys pde pf tf s rfl,
    fun n hn => entry_afterMap hm1' hm2' (by rwa [hpage])⟩
  rw [hm2', hm1']
  exact afterMap_frame _ pde s

/-! ### UNMAP_PAGE on a mapped page (R195, R196) -/

/-- The state in phase WR_PTE of UNMAP_PAGE. -/
def unmapAtWrPte (v pde : Word) (s : State) : State := cpuTurn ((atRdPte .unmap v pde s).setPhase (.wrPte v pde 0#32))

/-- The state in which a successful UNMAP_PAGE ends. -/
def afterUnmap (v pde : Word) (s : State) : State := afterInval v (atInval v pde 0#32 (unmapAtWrPte v pde s))

theorem runManager_unmap_mapped {v pde pte : Word} {s : State} (hb : s.bound = true)
    (hpde : readWord s (pdeAddr s v) = .next pde) (hp : entryP pde = true) (hpte : readWord s (pteAddr pde v) = .next pte)
    (hp' : entryP pte = true) : runManager (.query .unmap v) s = .next (afterUnmap v pde s) := by
  have hpte' : readWord (atRdPde (.query .unmap v) s) (pteAddr pde v) = .next pte := hpte
  have hbacked : isBacked (atRdPte .unmap v pde s).cfg (pteAddr pde v) = true := by
    simpa [atRdPte] using ((readWord_eq_next _ _ _).1 hpte).1
  rw [runManager_query_present hb hpde hp, atRdPte, runPhases_rdPte, hpte', andThen_next, if_pos hp']
  exact runPhases_wrPte_backed 0 hbacked

theorem afterUnmap_frame (v pde : Word) (s : State) : afterUnmap v pde s =
    { s with
      mem := putWord s.mem (pteAddr pde v) 0#32, y0 := none, y1 := none, ok := some true, ph := .idle
      invPending := false, invAddr := v, tlb := (afterUnmap v pde s).tlb, cpuTick := s.cpuTick + 5 } := by
  rw [afterUnmap, afterInval_atInval_frame]
  simp [unmapAtWrPte, atRdPte]

section Unmap

variable {v pde : Word} {s : State} {m1 : Memory} (hm1 : m1 = putWord s.mem (pteAddr pde v) 0#32)
include hm1

/-- The TLB through UNMAP_PAGE: three turns before the write, one after it, and INVAL's removal before the last. -/
theorem afterUnmap_tlb : (afterUnmap v pde s).tlb = tlbActs { s with mem := m1 } (Store.del (tlbActs { s with mem := m1 }
    (tlbActs s (tlbActs s (tlbActs s s.tlb (Config.cpuActs s.cpuTick)) (Config.cpuActs (s.cpuTick + 1)))
    (Config.cpuActs (s.cpuTick + 2))) (Config.cpuActs (s.cpuTick + 3))) (v.toNat / 4096))
    (Config.cpuActs (s.cpuTick + 4)) := by
  have hrdPte : (atRdPte .unmap v pde s).tlb
      = tlbActs s (tlbActs s s.tlb (Config.cpuActs s.cpuTick)) (Config.cpuActs (s.cpuTick + 1)) := by
    rw [atRdPte]
    exact cpuTurn_tlb_after (atRdPde_tlb (.query .unmap v) s) (by simp) (by simp) (by simp) (by simp) (by simp)
  have hwrPte : (unmapAtWrPte v pde s).tlb = tlbActs s (tlbActs s (tlbActs s s.tlb
      (Config.cpuActs s.cpuTick)) (Config.cpuActs (s.cpuTick + 1))) (Config.cpuActs (s.cpuTick + 2)) := by
    rw [unmapAtWrPte]
    exact cpuTurn_tlb_after hrdPte (by simp) (by simp [atRdPte]) (by simp [atRdPte]) (by simp [atRdPte]) (by simp [atRdPte])
  rw [afterUnmap]
  exact afterInval_atInval_tlb hwrPte (by simp [unmapAtWrPte, atRdPte]) (by simp [unmapAtWrPte, atRdPte, hm1])
    (by simp [unmapAtWrPte, atRdPte]) (by simp [unmapAtWrPte, atRdPte]) rfl

theorem entry_afterUnmap {n : PageNumber} (hn : n.toNat ≠ v.toNat / 4096) :
    EntryKeptDroppedOrFilled s (afterUnmap v pde s) [s.mem, m1] n := by
  have hrdPde : EntryKeptDroppedOrFilled s (atRdPde (.query .unmap v) s) [s.mem, m1] n := entry_atRdPde _ (by simp) n
  have hrdPte : EntryKeptDroppedOrFilled s (atRdPte .unmap v pde s) [s.mem, m1] n := by
    rw [atRdPte]
    exact hrdPde.cpuTurn_after (by simp) (by simp) (by simp) (by simp)
  have hwrPte : EntryKeptDroppedOrFilled s (unmapAtWrPte v pde s) [s.mem, m1] n := by
    rw [unmapAtWrPte]
    exact hrdPte.cpuTurn_after (by simp) (by simp [atRdPte]) (by simp [atRdPte]) (by simp [atRdPte])
  rw [afterUnmap]
  exact entry_afterInval_atInval hwrPte (by simp [unmapAtWrPte, atRdPte]) (by simp [unmapAtWrPte, atRdPte, hm1])
    (by simp [unmapAtWrPte, atRdPte]) hn

end Unmap

/-- Settles O37: the run's state is explicit; its TLB is followed turn by turn. -/
theorem unmapPageZeroesThePte : Obligations.UnmapPageZeroesThePte := by
  unfold Obligations.UnmapPageZeroesThePte
  intro s virt pde pte m1 hb hbacked hpde hp hbacked' hpte hp' hm1
  have hrun : exec (.unmapPage virt) s = .next (afterUnmap virt pde s) :=
    runManager_unmap_mapped hb ((readWord_eq_next _ _ _).2 ⟨hbacked, hpde⟩) hp ((readWord_eq_next _ _ _).2 ⟨hbacked', hpte⟩)
      hp'
  refine ⟨_, hrun, ?_, afterUnmap_tlb hm1, afterInval_own virt _, fun n hn => entry_afterUnmap hm1 hn⟩
  rw [hm1]
  exact afterUnmap_frame virt pde s

/-! ### What success says of the tables, and no stale translation (R206) -/

/-- An operation that answers `OK = 1` has read a present PDE. -/
theorem present_of_runManager_ok {op : MgrOp} {s t : State} (h : runManager op s = .next t) (hok : t.ok = some true) :
    ∃ pde, readWord s (pdeAddr s (mgrVirt op)) = .next pde ∧ entryP pde = true := by
  have hb := bound_of_runManager_ok h hok
  have hbound := h
  rw [runManager_bound _ _ hb, andThen_eq_next] at hbound
  obtain ⟨pde, hread, -⟩ := hbound
  refine ⟨pde, hread, ?_⟩
  by_contra hp
  obtain ⟨u, hu, hfail⟩ := runManager_absentPde hb hread (by simpa using hp)
  obtain rfl := Host.Outcome.next.inj (h.symm.trans hu)
  simp [hfail.ok_eq] at hok

/-- A query that answers `OK = 1` has read both entries present. -/
theorem mapped_of_runManager_query_ok {k : QueryKind} {v : Word} {s t : State} (h : runManager (.query k v) s = .next t)
    (hok : t.ok = some true) : ∃ pde pte, readWord s (pdeAddr s v) = .next pde ∧ entryP pde = true
      ∧ readWord s (pteAddr pde v) = .next pte ∧ entryP pte = true := by
  have hb := bound_of_runManager_ok h hok
  obtain ⟨pde, hread, hp⟩ := present_of_runManager_ok h hok
  rw [mgrVirt] at hread
  have hpresent := h
  rw [runManager_query_present hb hread hp, atRdPte, runPhases_rdPte, andThen_eq_next] at hpresent
  obtain ⟨pte, hread', -⟩ := hpresent
  refine ⟨pde, pte, hread, hp, hread', ?_⟩
  by_contra hp'
  obtain ⟨u, hu, hfail⟩ := runManager_absentPte hb hread hp hread' (by simpa using hp')
  obtain rfl := Host.Outcome.next.inj (h.symm.trans hu)
  simp [hfail.ok_eq] at hok

/-- A MAP_PAGE that answers `OK = 1` ends in `afterMap`. -/
theorem eq_afterMap_of_ok {m : MapArgs} {s t : State} (h : runManager (.map m) s = .next t) (hok : t.ok = some true) :
    ∃ pde, t = afterMap m pde s := by
  obtain ⟨pde, hread, hp⟩ := present_of_runManager_ok h hok
  obtain ⟨hbacked, -⟩ := runManager_map_ok h hok ((readWord_eq_next _ _ _).1 hread).2
  have hrun := runManager_map_present (bound_of_runManager_ok h hok) hread hp hbacked
  exact ⟨pde, Host.Outcome.next.inj (h.symm.trans hrun)⟩

theorem eq_afterUnmap_of_ok {v : Word} {s t : State} (h : runManager (.query .unmap v) s = .next t)
    (hok : t.ok = some true) : ∃ pde, t = afterUnmap v pde s := by
  obtain ⟨pde, pte, hread, hp, hread', hp'⟩ := mapped_of_runManager_query_ok h hok
  have hrun := runManager_unmap_mapped (bound_of_runManager_ok h hok) hread hp hread' hp'
  exact ⟨pde, Host.Outcome.next.inj (h.symm.trans hrun)⟩

/-- In INVAL, told to go on or left alone, the block removes the page's entry. -/
theorem step_inval {s : State} (hp : s.ph = .inval) (hpend : s.invPending = true)
    (hin : s.inputs = [] ∨ ∃ rest, s.inputs = .nextPhase :: rest) : ∃ u, step s = .next (afterInval s.invAddr u) := by
  obtain hin | ⟨rest, hin⟩ := hin
  · exact ⟨s, by rw [step_no_input_busy hin (by simp [hp]), phaseStep_inval hp hpend]⟩
  · refine ⟨cpuTurn (s.setInputs rest), ?_⟩
    rw [step_nextPhase hin (by simp [hp]), phaseStep_inval (by simpa using hp) (by simpa using hpend)]
    rfl

/-- Settles O54: MAP_PAGE, UNMAP_PAGE and the step of phase INVAL all end in `afterInval`. -/
theorem noStaleTranslationAfterMapOrUnmap : Obligations.NoStaleTranslationAfterMapOrUnmap := by
  unfold Obligations.NoStaleTranslationAfterMapOrUnmap
  refine ⟨?_, fun s hp hpend hin => ?_⟩
  · rintro s t virt phys pf tf (h | h) hok
    · rw [exec_mapPage_latched] at h
      obtain ⟨pde, ht⟩ := eq_afterMap_of_ok h hok
      exact afterMap_own virt phys pde pf tf s ht
    · obtain ⟨pde, rfl⟩ := eq_afterUnmap_of_ok h hok
      exact afterInval_own virt _
  · obtain ⟨u, hstep⟩ := step_inval hp hpend hin
    exact ⟨_, hstep, rfl, rfl, rfl, afterInval_own s.invAddr u⟩

end Sys2Proof.Machine

namespace Sys2Proof.Machine

open Sys2Proof

/-! ### The tables after MAP_PAGE and UNMAP_PAGE (R208, 70_reset_and_hazards.md R300) -/

/-- All addresses of a page lead to the same two entries. -/
theorem pdeAddr_of_alignPage_eq {v w : Word} (h : alignPage w = alignPage v) (s : State) : pdeAddr s w = pdeAddr s v := by
  rw [← pdeAddr_alignPage, h, pdeAddr_alignPage]

theorem pteAddr_of_alignPage_eq {v w : Word} (h : alignPage w = alignPage v) (pde : Word) : pteAddr pde w = pteAddr pde v := by
  rw [← pteAddr_alignPage, h, pteAddr_alignPage]

/-- The walk of `v` in `s` finds both entries in memory, the PTE apart from the PDE. -/
structure WalkReads (s : State) (v pde pte : Word) : Prop where
  bound : s.bound = true
  readPde : readWord s (pdeAddr s v) = .next pde
  readPte : readWord s (pteAddr pde v) = .next pte
  apart : pteAddr pde v ≠ pdeAddr s v

theorem WalkReads.of_samePage {s : State} {v w pde pte : Word} (h : WalkReads s v pde pte) (hw : alignPage w = alignPage v) :
    WalkReads s w pde pte := by
  obtain ⟨hb, hpde, hpte, hne⟩ := h
  rw [← pdeAddr_of_alignPage_eq hw] at hpde hne
  rw [← pteAddr_of_alignPage_eq hw] at hpte hne
  exact ⟨hb, hpde, hpte, hne⟩

/-- A write of the PTE alone is read back by the walk. -/
theorem WalkReads.of_writePte {s t : State} {v pde pte e : Word} (h : WalkReads s v pde pte) (hb : t.bound = s.bound)
    (hc : t.cfg = s.cfg) (hd : t.curDir = s.curDir) (hm : t.mem = putWord s.mem (pteAddr pde v) e) :
    WalkReads t v pde e := by
  obtain ⟨hbacked, hpde⟩ := (readWord_eq_next _ _ _).1 h.readPde
  obtain ⟨hbacked', -⟩ := (readWord_eq_next _ _ _).1 h.readPte
  have hat : pdeAddr t v = pdeAddr s v := pdeAddr_congr hd v
  refine ⟨hb.trans h.bound, ?_, ?_, by rw [hat]; exact h.apart⟩
  · rw [readWord_eq_next, hat, hc, hm, wordAt_putWord_ne _ _ _ _ (pteAddr_mod_four _ _) (pdeAddr_mod_four _ _) h.apart]
    exact ⟨hbacked, hpde⟩
  · rw [readWord_eq_next, hc, hm]
    exact ⟨hbacked', wordAt_putWord_self _ _ _⟩

/-- After a MAP_PAGE whose PTE is not the PDE itself the walk reads the two entries written (R190, R191). -/
theorem walkReads_afterMapPage {s t : State} {virt phys : Word} {pf tf : FlagsRecord}
    (h : exec (.mapPage virt phys pf tf) s = .next t) (hok : t.ok = some true)
    (hne : ∀ pde, wordAt s.mem (pdeAddr s virt) = some pde → pteAddr pde virt ≠ pdeAddr s virt) :
    ∃ pde, (pf.getLsbD 0 = true → entryP pde = true) ∧ WalkReads t virt pde (packPte phys tf) := by
  rw [exec_mapPage_latched] at h
  have hframe := runManager_frame h
  obtain ⟨pde, hread, hp⟩ := present_of_runManager_ok h hok
  simp only [mgrVirt, latchedMap, pdeAddr_alignPage] at hread
  obtain ⟨hbacked, hpde⟩ := (readWord_eq_next _ _ _).1 hread
  obtain ⟨hbacked', hmem⟩ := runManager_map_ok h hok (by simpa [latchedMap] using hpde)
  simp only [latchedMap, pdeAddr_alignPage, pteAddr_alignPage, packPte_alignPage] at hbacked' hmem
  have hapart := hne pde hpde
  have hat : pdeAddr t virt = pdeAddr s virt := pdeAddr_congr hframe.curDir virt
  refine ⟨updatePde s.cfg.pdeFlagMask pde pf, fun hpf => by simp [entryP_updatePde, hpf, hp], ?_⟩
  refine ⟨hframe.bound.trans (bound_of_runManager_ok h hok), ?_, ?_, by rwa [hat, pteAddr_updatePde]⟩
  · rw [readWord_eq_next, hat, hframe.cfg, hmem,
      wordAt_putWord_ne _ _ _ _ (pteAddr_mod_four _ _) (pdeAddr_mod_four _ _) hapart]
    exact ⟨hbacked, wordAt_putWord_self _ _ _⟩
  · rw [readWord_eq_next, pteAddr_updatePde, hframe.cfg, hmem]
    exact ⟨hbacked', wordAt_putWord_self _ _ _⟩

/-- An address put together from a page and an offset, as a number. -/
theorem toNat_alignPage_or {o : Word} (ho : o.toNat < 4096) (v : Word) :
    (alignPage v ||| o).toNat = v.toNat / 4096 * 4096 + o.toNat := by
  have hshift : (alignPage v).toNat = (v.toNat / 4096) <<< 12 := by rw [toNat_alignPage, Nat.shiftLeft_eq]
  rw [BitVec.toNat_or, hshift, ← Nat.shiftLeft_add_eq_or_of_lt (by simpa using ho), Nat.shiftLeft_eq]

theorem alignPage_alignPage_or {o : Word} (ho : o.toNat < 4096) (v : Word) : alignPage (alignPage v ||| o) = alignPage v := by
  apply BitVec.eq_of_toNat_eq
  rw [toNat_alignPage, toNat_alignPage_or ho, toNat_alignPage]
  omega

theorem pageOffset_alignPage_or {o : Word} (ho : o.toNat < 4096) (v : Word) : pageOffset (alignPage v ||| o) = o := by
  apply BitVec.eq_of_toNat_eq
  rw [toNat_pageOffset, toNat_alignPage_or ho]
  omega

/-- Settles O41: the queries of any address of the page walk to the PTE just written. -/
theorem mapThenQueryFindsTheFrame : Obligations.MapThenQueryFindsTheFrame := by
  unfold Obligations.MapThenQueryFindsTheFrame
  intro s t virt phys o pf tf h hok hpf htf ho hne
  obtain ⟨pde, hpresent, hreads⟩ := walkReads_afterMapPage h hok hne
  obtain ⟨hb, hpde, hpte, -⟩ := hreads.of_samePage (alignPage_alignPage_or ho virt)
  have hp' : entryP (packPte phys tf) = true := by rw [entryP_packPte, htf]
  obtain ⟨u, hu, hget⟩ := runManager_getPhys_answers hb hpde (hpresent hpf) hpte hp'
  obtain ⟨w, hw, hmapped⟩ := runManager_isMapped_answers hb hpde (hpresent hpf) hpte hp'
  refine ⟨⟨u, hu, hget.ok_eq, ?_⟩, w, hw, hmapped.ok_eq⟩
  rw [hget.y0_eq, frameAddress_packPte, pageOffset_alignPage_or ho]
  rfl

/-- Where the PTE is absent every query fails, whatever the PDE holds (R189, R195). -/
theorem WalkReads.query_fails {s : State} {v pde pte : Word} (h : WalkReads s v pde pte) (hp' : entryP pte = false)
    (k : QueryKind) : ∃ t, runManager (.query k v) s = .next t ∧ OnlyAnswers s t none (some false) := by
  cases hp : entryP pde with
  | false => exact runManager_absentPde h.bound h.readPde hp
  | true => exact runManager_absentPte h.bound h.readPde hp h.readPte hp'

/-- Settles O42: the first UNMAP_PAGE finds the PTE that MAP_PAGE wrote and leaves a zero there, at which every query
fails. -/
theorem mapThenUnmapWorksOnce : Obligations.MapThenUnmapWorksOnce := by
  unfold Obligations.MapThenUnmapWorksOnce
  intro s t virt phys pf tf h hok hpf htf hne
  obtain ⟨pde, hpresent, hreads⟩ := walkReads_afterMapPage h hok hne
  have hunmap : exec (.unmapPage virt) t = .next (afterUnmap virt pde t) :=
    runManager_unmap_mapped hreads.bound hreads.readPde (hpresent hpf) hreads.readPte (by rw [entryP_packPte, htf])
  have hzero : WalkReads (afterUnmap virt pde t) virt pde 0#32 := by
    rw [afterUnmap_frame]
    exact hreads.of_writePte rfl rfl rfl rfl
  obtain ⟨w, hw, hagain⟩ := hzero.query_fails entryP_zero .unmap
  obtain ⟨x, hx, hmapped⟩ := hzero.query_fails entryP_zero .isMapped
  refine ⟨_, hunmap, ?_, ⟨w, hw, hagain.ok_eq, hagain.mem_eq⟩, x, hx, hmapped.ok_eq⟩
  rw [afterUnmap_frame]

/-- Settles O43: the PTE written is absent, so the queries fail at it, or at the PDE. -/
theorem mapWithAbsentPteFlagLeavesUnmapped : Obligations.MapWithAbsentPteFlagLeavesUnmapped := by
  unfold Obligations.MapWithAbsentPteFlagLeavesUnmapped
  intro s virt phys pde pf tf hb hbacked hpde hp hbacked' hapart htf
  have hrun : exec (.mapPage virt phys pf tf) s = .next (afterMap (latchedMap virt phys pf tf) pde s) :=
    exec_mapPage_present hb ((readWord_eq_next _ _ _).2 ⟨hbacked, hpde⟩) hp hbacked'
  have hok : (afterMap (latchedMap virt phys pf tf) pde s).ok = some true := by rw [afterMap_frame]
  have hne : ∀ e, wordAt s.mem (pdeAddr s virt) = some e → pteAddr e virt ≠ pdeAddr s virt := by
    intro e he
    obtain rfl : pde = e := Option.some.inj (hpde.symm.trans he)
    exact hapart
  obtain ⟨e, -, hreads⟩ := walkReads_afterMapPage hrun hok hne
  have habsent : entryP (packPte phys tf) = false := by rw [entryP_packPte, htf]
  obtain ⟨u, hu, hget⟩ := hreads.query_fails habsent .getPhys
  obtain ⟨w, hw, hmapped⟩ := hreads.query_fails habsent .isMapped
  exact ⟨_, hrun, hok, ⟨u, hu, hget.ok_eq, hget.y0_eq⟩, w, hw, hmapped.ok_eq⟩

/-! ### What an operation leaves of memory (R208 item 6, 45_cpu_primitives.md R227) -/

theorem runManager_map_mem_outside {m : MapArgs} {s t : State} {a : Nat} (h : runManager (.map m) s = .next t)
    (hpde : OutsideWord (pdeAddr s m.virt) a)
    (hpte : ∀ pde, wordAt s.mem (pdeAddr s m.virt) = some pde → OutsideWord (pteAddr pde m.virt) a) :
    Store.get t.mem a = Store.get s.mem a := by
  obtain ⟨-, -, -, hmem, -⟩ | ⟨pde, hread, -, -, -, -, -, -, -, -, hmem⟩ := runManager_map_next h
  · rw [hmem]
  · rw [hmem, get_putWord_of_outside _ _ _ _ (hpte pde hread), get_putWord_of_outside _ _ _ _ hpde]

theorem runManager_query_mem_outside {k : QueryKind} {v : Word} {s t : State} {a : Nat}
    (h : runManager (.query k v) s = .next t)
    (hpte : ∀ pde, wordAt s.mem (pdeAddr s v) = some pde → OutsideWord (pteAddr pde v) a) :
    Store.get t.mem a = Store.get s.mem a := by
  obtain ⟨-, -, -, hmem, -⟩ | ⟨pde, _, hread, -, -, -, -, -, -, hkind⟩ := runManager_query_next h
  · rw [hmem]
  · obtain ⟨-, -, -, hmem⟩ | ⟨-, -, -, -, hmem⟩ | ⟨-, -, -, -, hmem⟩ := hkind
    · rw [hmem, get_putWord_of_outside _ _ _ _ (hpte pde hread)]
    · rw [hmem]
    · rw [hmem]

/-- GET_PHYS and IS_MAPPED write nothing. -/
theorem runManager_query_mem {k : QueryKind} {v : Word} {s t : State} (h : runManager (.query k v) s = .next t)
    (hk : k ≠ .unmap) : t.mem = s.mem := by
  obtain ⟨-, -, -, hmem, -⟩ | ⟨_, _, -, -, -, -, -, -, -, hkind⟩ := runManager_query_next h
  · exact hmem
  · obtain ⟨hunmap, -⟩ | ⟨-, -, -, -, hmem⟩ | ⟨-, -, -, -, hmem⟩ := hkind
    · exact absurd hunmap hk
    · exact hmem
    · exact hmem

/-- Settles O45: MAP_PAGE and UNMAP_PAGE by the words their runs write, every other instruction by its named updates. -/
theorem memoryFrameOfEveryInstruction : Obligations.MemoryFrameOfEveryInstruction := by
  unfold Obligations.MemoryFrameOfEveryInstruction
  intro s t i h
  cases i with
  | encDesc | encPde | decPde | encPte | decPte | v2p | p2v | dirIdx | tblIdx | pgOff | frameAddr | initRt | pLgdt | pInvlpg
  | pFlushTlb | pRdCr3 =>
    cases h
    simp
  | initGdt r => cases r <;> cases h <;> simp
  | loadGdt r => obtain ⟨rfl, rfl⟩ | ⟨rfl, rfl⟩ := execLoadGdt_next h <;> simp
  | mapPage virt phys pf tf =>
    intro a hpde hpte
    rw [exec_mapPage_latched] at h
    exact runManager_map_mem_outside h (by simpa [latchedMap] using hpde) (by simpa [latchedMap] using hpte)
  | unmapPage virt => exact fun a hpte => runManager_query_mem_outside h hpte
  | getPhys | isMapped => exact runManager_query_mem h (by simp)
  | pReloadSegs =>
    obtain rfl := reloadSegs_next h
    simp
  | pWrCr3 phys =>
    obtain rfl := execPWrCr3_next h
    simp

end Sys2Proof.Machine

namespace Sys2Proof.Machine

open Sys2Proof

/-! ## The CPU primitives and the CPU's translation (45_cpu_primitives.md) -/

/-! ### The primitives (R220 to R224) -/

/-- Settles O49: P_LGDT is the named update of `GDTR`. -/
theorem lgdtLoadsOnlyTheTableRegister : Obligations.LgdtLoadsOnlyTheTableRegister := by
  unfold Obligations.LgdtLoadsOnlyTheTableRegister
  exact fun _ _ _ => rfl

/-- Settles O50: the test the reload makes is `TableAcceptable`. -/
theorem reloadSegsLoadsOrIsFatal : Obligations.ReloadSegsLoadsOrIsFatal := by
  unfold Obligations.ReloadSegsLoadsOrIsFatal
  refine fun s => ⟨fun h => ?_, fun h => ?_⟩
  · have hloads : exec .pReloadSegs s = .next (s.setSegs (reloadedSegs s.cfg s.gdt)) := if_pos ((acceptable_iff ..).2 h)
    exact ⟨_, hloads, rfl, segsReloaded_of_acceptable h⟩
  · exact if_neg (mt (acceptable_iff ..).1 h)

/-- Settles O51: the one key P_INVLPG deletes is the page number, which has no offset bits. -/
theorem invlpgRemovesOneTranslation : Obligations.InvlpgRemovesOneTranslation := by
  unfold Obligations.InvlpgRemovesOneTranslation
  intro s virt
  have hinvlpg : exec (.pInvlpg virt) s = .next (invalidatePage s virt) := rfl
  have htlb : (invalidatePage s virt).tlb = Store.del s.tlb (virt.toNat / 4096) := invalidatePage_tlb_of rfl rfl
  refine ⟨_, hinvlpg, rfl, ?_, fun n hn => ?_⟩
  · rw [htlb, Store.get_del_self]
  · rw [htlb, Store.get_del_ne _ hn.symm]

/-- A flush leaves of a page's entry what passes its test: a global entry that the CPU keeps (R224). -/
theorem get_flushTlb {s : State} (h : Tlb.wf s.tlb = true) (n : Nat) : Store.get (flushTlb s).tlb n
    = (Store.get s.tlb n).filter fun e => tlbGlobal e && Config.keepsGlobal s.cpuTick n := by
  rw [flushTlb_tlb]
  exact Store.get_keep_of_rising _ _ _ 0 n h

/-- Settles O52: no entry that is not global passes the flush's test, a global one may, and none is made. -/
theorem flushRemovesEveryNonGlobalTranslation : Obligations.FlushRemovesEveryNonGlobalTranslation := by
  unfold Obligations.FlushRemovesEveryNonGlobalTranslation
  intro s hwf
  have hflush : exec .pFlushTlb s = .next (flushTlb s) := rfl
  refine ⟨_, hflush, rfl, fun n e he hlocal => ?_, fun n e he hglobal => ?_, fun n hnone => ?_⟩
  · have hgoes : tlbGlobal e = false := hlocal
    rw [get_flushTlb hwf, he]
    simp [hgoes]
  · have hmayStay : tlbGlobal e = true := hglobal
    rw [get_flushTlb hwf, he]
    cases hkeep : Config.keepsGlobal s.cpuTick n with
    | true => exact .inl (by simp [hmayStay])
    | false => exact .inr (by simp)
  · rw [get_flushTlb hwf, hnone, Option.filter_none]

/-! ### The CPU's walk is the manager's (R228, 10_state.md R23, 44_paging_manager.md R181) -/

/-- What the CPU may cache of a walk's result: only a mapped page (R23; log 7). -/
def fillOfWalk : Res Walk → Option TlbEntry
  | .next (.mapped pde pte) => some { frame := entryBase pte, flags := cachedFlags pde pte }
  | _ => none

/-- The physical address a walk's result gives, if it is a mapped page (R200, R228). -/
def addressOfWalk (v : Word) : Walk → Option Word
  | .mapped _ pte => some (frameAddress pte ||| pageOffset v)
  | _ => none

/-- What the CPU answers where a walk gives this address, or none (R228). -/
def translationOf : Option Word → Translation
  | some pa => .phys pa
  | none => .pageFault

/-- `walk` on the two entries by their addresses (R181, 20_memory.md R46). -/
theorem walk_eq_readPde (s : State) (v : Word) : walk s v = andThen (readWord s (pdeAddr s v)) fun pde =>
    if entryP pde then
      andThen (readWord s (pteAddr pde v)) fun pte => if entryP pte then .next (.mapped pde pte) else .next (.noPte pde)
    else .next .noPde := rfl

theorem entryBase_eq_ofNat (e : Word) : entryBase e = BitVec.ofNat 20 (e.toNat / 4096) := by
  rw [← toNat_vpnOf, BitVec.ofNat_toNat, BitVec.setWidth_eq]
  rfl

theorem fillOfWalk_eq_none {r : Res Walk} (h : ∀ pde pte, r ≠ .next (.mapped pde pte)) : fillOfWalk r = none := by
  match r with
  | .next (.mapped pde pte) => exact absurd rfl (h pde pte)
  | .next .noPde | .next (.noPte _) | .fault _ | .refused _ => rfl

section SharedDirectory

variable {s : State} {v : Word} (hdir : s.cr3.toNat / 4096 = s.curDir.toNat)
  (hps : ∀ pde, wordAt s.mem (pdeAddr s v) = some pde → pde.getLsbD 7 = false)
include hdir hps

/-- From the manager's directory and with no 4 MiB page, the CPU may cache what `walk` finds. -/
theorem cpuFillEntry_eq_fillOfWalk : cpuFillEntry s (vpnOf v) = fillOfWalk (walk s v) := by
  have hat : pdeAddrIn (cpuDir s) (alignPage v) = pdeAddr s v := by rw [← pageBase_vpnOf]; exact cpuPdeAddr_vpnOf hdir v
  simp only [cpuFillEntry, walk_eq_readPde, pageBase_vpnOf, pteAddr_alignPage, hat]
  cases hpde : readWord s (pdeAddr s v) with
  | fault e | refused e => rfl
  | next pde =>
    have hsmall : pdePs pde = false := hps pde ((readWord_eq_next _ _ _).1 hpde).2
    simp only [andThen_next, hsmall, Bool.false_and]
    cases entryP pde with
    | false => rfl
    | true =>
      cases readWord s (pteAddr pde v) with
      | fault e | refused e => rfl
      | next pte => cases hp : entryP pte <;> simp [hp, fillOfWalk]

/-- From the manager's directory, with no 4 MiB page and no TLB entry, the CPU answers what `walk` finds. -/
theorem translate_eq_addressOfWalk (hmiss : Store.get s.tlb (v.toNat / 4096) = none) :
    translate s v = andThen (walk s v) fun w => .next (translationOf (addressOfWalk v w)) := by
  have hat : pdeAddrIn (cpuDir s) v = pdeAddr s v := by rw [cpuDir_eq_dirBase hdir, pdeAddr]
  simp only [translate, walk_eq_readPde, toNat_vpnOf, hmiss, hat]
  cases hpde : readWord s (pdeAddr s v) with
  | fault e | refused e => rfl
  | next pde =>
    have hsmall : pdePs pde = false := hps pde ((readWord_eq_next _ _ _).1 hpde).2
    simp only [andThen_next, hsmall, Bool.false_and]
    cases entryP pde with
    | false => rfl
    | true =>
      cases readWord s (pteAddr pde v) with
      | fault e | refused e => rfl
      | next pte => cases hp : entryP pte <;> simp [hp, addressOfWalk, translationOf]

end SharedDirectory

/-- A GET_PHYS that completes answers in `Y0` the address its walk gives (R200). -/
theorem getPhys_y0 {s t : State} {v : Word} (hb : s.bound = true) (h : exec (.getPhys v) s = .next t) :
    ∃ w, walk s v = .next w ∧ t.y0 = addressOfWalk v w := by
  have hquery := getPhysIsTheWalk s v hb
  rw [h] at hquery
  cases hwalk : walk s v with
  | fault e | refused e =>
    rw [hwalk] at hquery
    cases hquery
  | next w =>
    rw [hwalk] at hquery
    refine ⟨w, rfl, ?_⟩
    cases w with
    | noPde | noPte pde | mapped pde pte =>
      obtain ⟨_, ht, hanswers⟩ := hquery
      cases ht
      exact hanswers.y0_eq

/-- Settles O55: with one directory and PS = 0 the CPU reads the entries that `walk` reads and makes its two tests. -/
theorem translationAgreesWithGetPhys : Obligations.TranslationAgreesWithGetPhys := by
  unfold Obligations.TranslationAgreesWithGetPhys
  intro s virt hdir hps
  refine ⟨fun pde pte hmapped => ?_, fun hunmapped => ?_, fun t hb hmiss hget => ?_⟩
  · refine ⟨cachedFlags pde pte, cachedFlags_global pde pte, ?_⟩
    rw [cpuFillEntry_eq_fillOfWalk hdir hps, hmapped, ← entryBase_eq_ofNat, fillOfWalk]
  · rw [cpuFillEntry_eq_fillOfWalk hdir hps, fillOfWalk_eq_none hunmapped]
  · obtain ⟨w, hwalk, hy0⟩ := getPhys_y0 hb hget
    rw [translate_eq_addressOfWalk hdir hps hmiss, hwalk, andThen_next, hy0]
    cases addressOfWalk virt w <;> rfl

end Sys2Proof.Machine

namespace Sys2Proof.Machine

open Sys2Proof

/-! ### Operations of an unbound manager (60_exceptions.md R251, R252, R253) -/

/-- CHECK is entered before any turn of the CPU. -/
theorem OnlyReads.atCheck (op : MgrOp) (s : State) : OnlyReads s (atCheck op s) := ⟨rfl, .of_tlb_eq rfl rfl⟩

/-- An unbound manager fails every operation, whatever memory holds (R252). -/
theorem runManager_unbound_fails (op : MgrOp) {s : State} (hb : s.bound = false) :
    ∃ t, runManager op s = .next t ∧ OnlyAnswers s t none (some false) :=
  ⟨_, runManager_unbound op s hb, (OnlyReads.atCheck op s).answer none (some false)⟩

/-- Settles O31: CHECK fails on an unbound manager, before anything is read. -/
theorem unboundManagerFailsAndTouchesNothing : Obligations.UnboundManagerFailsAndTouchesNothing := by
  unfold Obligations.UnboundManagerFailsAndTouchesNothing
  intro s virt phys pf tf hb i hi
  obtain ⟨op, hop, -⟩ := exec_managerOp hi s
  rw [hop]
  exact runManager_unbound_fails op hb

end Sys2Proof.Machine

namespace Sys2Proof.Machine

open Sys2Proof

/-! ## A whole run on the request side (70_reset_and_hazards.md R283)

One lemma per action of the run, each giving the whole next state: only the TLB `l` and the counter `n` of its schedule are
left open (log 6), as the step's own turns of the CPU leave them. -/

/-- The state a step leaves that issues INIT_GDT with a table reference (41_gdt_table.md R122). -/
def afterInitGdt (s : State) (rest : List Input) (l : Tlb) (n : Nat) : State :=
  { s with inputs := rest, op := 0x02#8, gdt := builtGdt, y0 := none, y1 := none, ok := none, tlb := l, cpuTick := n }

/-- The state a step leaves that issues LOAD_GDT of an acceptable table, the segment registers reloaded to `r`
(41_gdt_table.md R126). -/
def afterLoadGdt (s : State) (rest : List Input) (r : SegRegs) (l : Tlb) (n : Nat) : State :=
  { s with
    inputs := rest, op := 0x03#8, gdtr := { limit := 0x002F#16, base := s.cfg.gdtLinearBase }, segs := r
    y0 := none, y1 := none, ok := none, ph := .idle, tlb := l, cpuTick := n }

/-- The state a step leaves that issues INIT_RT (44_paging_manager.md R184). -/
def afterInitRt (s : State) (rest : List Input) (l : Tlb) (n : Nat) : State :=
  { s with
    inputs := rest, op := 0x30#8, bound := true, curDir := vpnOf s.cfg.bootPageDirectory
    y0 := none, y1 := none, ok := none, tlb := l, cpuTick := n }

/-- The state the three issues leave, whatever the TLB and the counter were between them. -/
def afterBoot (s : State) (rest : List Input) (r : SegRegs) (l : Tlb) (n : Nat) : State :=
  afterInitRt (afterLoadGdt (afterInitGdt s rest l n) rest r l n) rest l n

/-- The state a step leaves in which the host writes `A0` (10_state.md R11). -/
def afterWriteA0 (s : State) (rest : List Input) (v : Word) (l : Tlb) (n : Nat) : State :=
  { s with inputs := rest, a0 := v, tlb := l, cpuTick := n }

/-- The state a step leaves that issues a GET_PHYS which answers `y` (44_paging_manager.md R200). -/
def afterGetPhys (s : State) (rest : List Input) (y : Word) (l : Tlb) (n : Nat) : State :=
  { s with
    inputs := rest, op := 0x33#8, y0 := some y, y1 := none, ok := some true, ph := .idle, tlb := l, cpuTick := n }

section HostSteps

variable {s : State} {rest : List Input} (hidle : s.ph = .idle)
include hidle

/-- A step that issues an operation runs it after the CPU's turn, with the code in `OP` (R11). -/
theorem exists_step_issue_eq_exec {code : Byte} {i : Instr} (hin : s.inputs = .issue code :: rest)
    (hdec : decodeOperation { op := code, a0 := s.a0, a1 := s.a1, a2 := s.a2, a3 := s.a3 } = .ok i) :
    ∃ l n, step s = exec i { s with inputs := rest, op := code, tlb := l, cpuTick := n } :=
  ⟨_, _, stepRunsTheIssuedOperation s code rest i hin hidle hdec⟩

theorem step_issue_initGdt (hin : s.inputs = .issue 0x02#8 :: rest) (ha0 : s.a0.getLsbD 0 = true) :
    ∃ l n, step s = .next (afterInitGdt s rest l n) := by
  have hdec : decodeOperation { op := 0x02#8, a0 := s.a0, a1 := s.a1, a2 := s.a2, a3 := s.a3 } = .ok (.initGdt .table) :=
    congrArg (fun r => Except.ok (Instr.initGdt r)) (if_pos ha0)
  obtain ⟨l, n, hstep⟩ := exists_step_issue_eq_exec hidle hin hdec
  exact ⟨l, n, hstep.trans (exec_initGdt_table _)⟩

theorem step_issue_loadGdt (hin : s.inputs = .issue 0x03#8 :: rest) (ha0 : s.a0.getLsbD 0 = true)
    (hacc : TableAcceptable s.cfg { limit := 0x002F#16, base := s.cfg.gdtLinearBase } s.gdt) :
    ∃ r l n, SegsReloaded s.cfg s.gdt r ∧ step s = .next (afterLoadGdt s rest r l n) := by
  have hdec : decodeOperation { op := 0x03#8, a0 := s.a0, a1 := s.a1, a2 := s.a2, a3 := s.a3 } = .ok (.loadGdt .table) :=
    congrArg (fun r => Except.ok (Instr.loadGdt r)) (if_pos ha0)
  obtain ⟨l, n, hstep⟩ := exists_step_issue_eq_exec hidle hin hdec
  obtain ⟨hloads, -⟩ := loadGdtLoadsOrIsFatal { s with inputs := rest, op := 0x03#8, tlb := l, cpuTick := n }
  obtain ⟨t, ht, hframe, hsegs, -⟩ := hloads hacc
  exact ⟨t.segs, t.tlb, t.cpuTick, hsegs, hstep.trans (ht.trans (congrArg _ hframe))⟩

theorem step_issue_initRt (hin : s.inputs = .issue 0x30#8 :: rest) :
    ∃ l n, step s = .next (afterInitRt s rest l n) := by
  obtain ⟨l, n, hstep⟩ := exists_step_issue_eq_exec (i := .initRt) hidle hin rfl
  exact ⟨l, n, hstep.trans (exec_initRt _)⟩

theorem step_writePort_a0 {v : Word} (hin : s.inputs = .writePort .a0 v :: rest) :
    ∃ l n, step s = .next (afterWriteA0 s rest v l n) :=
  ⟨_, _, (hostActionsChangeOnlyTheirTarget s _ rest hidle rfl).1 .a0 v hin⟩

/-- The issue of GET_PHYS of a mapped page, which `A0` names. -/
theorem step_issue_getPhys {pde pte : Word} (hin : s.inputs = .issue 0x33#8 :: rest) (hb : s.bound = true)
    (hpde : readWord s (pdeAddr s s.a0) = .next pde) (hp : entryP pde = true)
    (hpte : readWord s (pteAddr pde s.a0) = .next pte) (hp' : entryP pte = true) :
    ∃ l n, step s = .next (afterGetPhys s rest (frameAddress pte ||| pageOffset s.a0) l n) := by
  obtain ⟨l, n, hstep⟩ := exists_step_issue_eq_exec (i := .getPhys s.a0) hidle hin rfl
  obtain ⟨t, ht, hframe, -⟩ := runManager_getPhys_answers
    (s := { s with inputs := rest, op := 0x33#8, tlb := l, cpuTick := n }) hb hpde hp hpte hp'
  exact ⟨t.tlb, t.cpuTick, hstep.trans (ht.trans (congrArg _ hframe))⟩

/-- The boot order itself: the table that LOAD_GDT tests is the one INIT_GDT built (41_gdt_table.md R129). -/
theorem run_boot (hcs : s.cfg.kernelCs = 0x0008#16) (hds : s.cfg.kernelDs = 0x0010#16) (ha0 : s.a0.getLsbD 0 = true)
    (hin : s.inputs = .issue 0x02#8 :: .issue 0x03#8 :: .issue 0x30#8 :: rest) :
    ∃ r l n, SegsReloaded s.cfg builtGdt r
      ∧ ∀ k, Host.Core.run core (k + 3) s = Host.Core.run core k (afterBoot s rest r l n) := by
  obtain ⟨l₁, n₁, h₁⟩ := step_issue_initGdt hidle hin ha0
  obtain ⟨r, l₂, n₂, hsegs, h₂⟩ :=
    step_issue_loadGdt (s := afterInitGdt s _ l₁ n₁) hidle rfl ha0 (tableAcceptable_builtGdt hcs hds)
  obtain ⟨l₃, n₃, h₃⟩ := step_issue_initRt (s := afterLoadGdt (afterInitGdt s _ l₁ n₁) _ r l₂ n₂) rfl rfl
  exact ⟨r, l₃, n₃, hsegs, fun k => (run_of_step h₁).trans ((run_of_step h₂).trans (run_of_step h₃))⟩

end HostSteps

/-- The manager that INIT_RT binds walks from the boot directory (R184). -/
theorem dirBase_afterBoot (s : State) (rest : List Input) (r : SegRegs) (l : Tlb) (n : Nat) :
    dirBase (afterBoot s rest r l n) = alignPage s.cfg.bootPageDirectory := pageBase_vpnOf _

/-- Settles O60: the boot order leaves memory alone, so the query walks from the bound directory through the two entries
given. -/
theorem bootOrderThenQueryAnswers : Obligations.BootOrderThenQueryAnswers := by
  unfold Obligations.BootOrderThenQueryAnswers
  intro s virt pde pte hidle hcs hds ha0 hin hbacked hpde hp hbacked' hpte hp'
  obtain ⟨r, l, n, hsegs, hboot⟩ := run_boot hidle hcs hds ha0 hin
  obtain ⟨l₄, n₄, h₄⟩ := step_writePort_a0 (s := afterBoot s _ r l n) rfl rfl
  set w := afterWriteA0 (afterBoot s _ r l n) _ virt l₄ n₄
  have hdir : dirBase w = alignPage s.cfg.bootPageDirectory := dirBase_afterBoot ..
  have hreadPde : readWord w (pdeAddr w virt) = .next pde := by
    rw [pdeAddr, hdir]
    exact (readWord_eq_next w _ _).2 ⟨hbacked, hpde⟩
  have hreadPte : readWord w (pteAddr pde virt) = .next pte := (readWord_eq_next w _ _).2 ⟨hbacked', hpte⟩
  obtain ⟨l₅, n₅, h₅⟩ := step_issue_getPhys (s := w) rfl rfl rfl hreadPde hp hreadPte hp'
  obtain ⟨hcode, hdata, hes, hfs, hgs, hss⟩ := segsReloaded_builtGdt hcs hds hsegs
  exact ⟨_, (hboot 2).trans ((run_of_step h₄).trans (run_of_step h₅)), rfl, builtGdt_eq_slots,
    congrArg SegReg.selector hcode, congrArg SegReg.selector hdata, hes, hfs, hgs, hss, rfl, rfl, rfl, rfl, rfl, rfl⟩

end Sys2Proof.Machine
